-- ==== Sys2Proof/Word.lean ====
section
/-! DEFINITION. The words the M17 CORE works on: bytes, 32-bit register words, bit strings. -/

namespace Sys2Proof

/-- One byte of IBUF, OBUF or a frame (20_memory.md R64, R65). -/
abbrev Byte := BitVec 8

/-- One 32-bit register, or one command word (10_state.md R21, R22, 30_encoding.md R90). -/
abbrev Word := BitVec 32

/-- A bit string: a finite sequence of bits indexed from 0 (00_scope.md R7). -/
abbrev Bits := List Bool

/-- A byte sequence (00_scope.md R8, R9). -/
abbrev Bytes := List Byte

end Sys2Proof
end

