-- ==== Sys2Proof/Config.lean ====
section
/-! DEFINITION. What an implementation fixes: the parameters of 00_scope.md R6 as a type (this hardware's values are
`Machine.hw`, in Machine/Constants.lean), and the free values, the values the spec leaves unspecified. -/

namespace Sys2Proof

/-- `B40_ORDER` (00_scope.md R6, 41_address.md R132): which character is the least-significant base-40 digit. -/
inductive B40Order where
  | lsbFirst
  | msbFirst
  deriving DecidableEq, Repr

/-- `LICH_CTR_POS` (00_scope.md R6, 48_stream_packet_ip.md R281): where the counter sits in a LICH unit.
`ctrPrefix` is the spec's PREFIX, `ctrSuffix` its SUFFIX. -/
inductive LichCtrPos where
  | ctrPrefix
  | ctrSuffix
  deriving DecidableEq, Repr

/-- `PRBS_FORM` (00_scope.md R6, 46_interleave_randomize_prbs.md R234). -/
inductive PrbsForm where
  | fibonacci
  | galois
  deriving DecidableEq, Repr

/-- `BERT_PUNCT` (00_scope.md R6, 10_state.md R31): one of the three tabled masks, or another keep mask. -/
inductive BertPunct where
  | p1
  | p2
  | p3
  | other (mask : Bits)
  deriving DecidableEq, Repr

/-- The parameters of 00_scope.md R6 that a rule depends on. Every function of the model that depends on one takes
it from here, so a claim can be stated for all values of an OPEN-capable parameter that meet `Machine.ParamsOk`, the
constraints the rules put on them (Machine/Conv.lean); the machine itself runs at `Machine.hw`. -/
structure Params where
  /-- `B40_ORDER` -/
  b40Order : B40Order
  /-- `LICH_CTR_POS` -/
  lichCtrPos : LichCtrPos
  /-- `PUNCT_P1`, a keep mask, position 0 first -/
  punctP1 : Bits
  /-- `PUNCT_P2` -/
  punctP2 : Bits
  /-- `PUNCT_P3` -/
  punctP3 : Bits
  /-- `RAND_SEQ`, 46 bytes -/
  randSeq : Bytes
  /-- `GOLAY_PARITY`, 12 words of 12 bits; entry i is the parity of data bit i -/
  golayParity : List (BitVec 12)
  /-- `BERT_PUNCT` -/
  bertPunct : BertPunct
  /-- `PRBS_FORM` -/
  prbsForm : PrbsForm
  /-- `TEXT_INDEX_BASE`: 0 or 1 -/
  textIndexBase : Nat
  /-- `LICH_BAD_DIST`: 0..24 -/
  lichBadDist : Nat
  /-- `SOFT_SLICE`: 1..255 -/
  softSlice : Nat
  deriving DecidableEq, Repr

/-- What byte `addr` (a host-port address of IBUF or OBUF) holds while nothing has written it, in the `epoch`-th life
of the buffers: an arbitrary value, fixed until written (70_reset_and_hazards.md R382, 93 U1). A FREE VALUE: it has
no body, so no proof can depend on it. Log 1. -/
opaque Config.bufferByte (epoch addr : Nat) : Byte

/-- What byte `i` of PBUF holds while nothing has written it, in the `epoch`-th life of PBUF (10_state.md R35, 93 U2).
A FREE VALUE. Log 3. -/
opaque Config.packetByte (epoch i : Nat) : Byte

/-- What byte `i` of TBUF holds while nothing has written it, in the `epoch`-th life of TBUF (10_state.md R36, 93 U2).
A FREE VALUE. Log 3. -/
opaque Config.textByte (epoch i : Nat) : Byte

/-- The `n`-th unspecified value the host port returns: a read of RES, OBUF, CMDCNT or a collector register while
BUSY = 1 (70_reset_and_hazards.md R384, 93 U3), the data of a read that takes a bus error (60_exceptions.md R366, U4),
a read while reset is asserted (R380, U5). A FREE VALUE. Log 6. -/
opaque Config.unspecifiedRead (n : Nat) : Word

end Sys2Proof
end

