-- ==== Sys2Proof/Machine/Constants.lean ====
section
/-! DEFINITION. The constants in read-only logic (10_state.md R38) and this hardware's parameter values
(00_scope.md R6). -/

namespace Sys2Proof.Machine

/-- The ID register (10_state.md R24). -/
def idValue : Word := 0x4D313707

/-- The LSF sync word (49_pipeline_bert.md R320). -/
def syncLsf : BitVec 16 := 0x55F7

/-- The stream sync word (49_pipeline_bert.md R320). -/
def syncStream : BitVec 16 := 0xFF5D

/-- The packet sync word (49_pipeline_bert.md R320). -/
def syncPacket : BitVec 16 := 0x75FF

/-- The BERT sync word (49_pipeline_bert.md R320). -/
def syncBert : BitVec 16 := 0xDF55

/-- The EOT marker; no command emits it (49_pipeline_bert.md R320). -/
def eotMarker : BitVec 16 := 0x555D

/-- The IP magic "M17 " (48_stream_packet_ip.md R297). -/
def ipMagic : Bytes := [0x4D, 0x31, 0x37, 0x20]

/-- The base-40 alphabet, index 0 first: space, 0-9, A-Z, then - / . (41_address.md R130). -/
def alphabet40 : Bytes :=
  [0x20, 0x30, 0x31, 0x32, 0x33, 0x34, 0x35, 0x36, 0x37, 0x38, 0x39,
   0x41, 0x42, 0x43, 0x44, 0x45, 0x46, 0x47, 0x48, 0x49, 0x4A, 0x4B, 0x4C, 0x4D,
   0x4E, 0x4F, 0x50, 0x51, 0x52, 0x53, 0x54, 0x55, 0x56, 0x57, 0x58, 0x59, 0x5A,
   0x2D, 0x2F, 0x2E]

/-- The broadcast address (41_address.md R131). -/
def broadcastAddress : Nat := 0xFFFFFFFFFFFF

/-- The text form of the broadcast address, "@ALL" (41_address.md R131). -/
def broadcastText : Bytes := [0x40, 0x41, 0x4C, 0x4C]

/-- The size of IBUF in bytes, `IBUF_SIZE` (00_scope.md R6). -/
def ibufSize : Nat := 1024

/-- The size of OBUF in bytes, `OBUF_SIZE` (00_scope.md R6). -/
def obufSize : Nat := 1024

/-- `VIT_NMAX`: the most information bits of CONV_ENC and VITERBI (00_scope.md R6). -/
def vitNmax : Nat := 508

/-- `PUNCT_P1`: 1, then 1011 fifteen times (00_scope.md R6, 45_conv_viterbi.md R202). -/
def maskP1 : Bits := true :: (List.replicate 15 [true, false, true, true]).flatten

/-- `PUNCT_P2`: eleven 1s and a 0 (00_scope.md R6, 45_conv_viterbi.md R202). -/
def maskP2 : Bits := List.replicate 11 true ++ [false]

/-- `PUNCT_P3`: seven 1s and a 0 (00_scope.md R6, 45_conv_viterbi.md R202). -/
def maskP3 : Bits := List.replicate 7 true ++ [false]

/-- `RAND_SEQ` (46_interleave_randomize_prbs.md R232). -/
def randSeq : Bytes :=
  [0xD6, 0xB5, 0xE2, 0x30, 0x82, 0xFF, 0x84, 0x62, 0xBA, 0x4E, 0x96, 0x90, 0xD8, 0x98, 0xDD, 0x5D,
   0x0C, 0xC8, 0x52, 0x43, 0x91, 0x1D, 0xF8, 0x6E, 0x68, 0x2F, 0x35, 0xDA, 0x14, 0xEA, 0xCD, 0x76,
   0x19, 0x8D, 0xD5, 0x80, 0xD1, 0x33, 0x87, 0x13, 0x57, 0x18, 0x2D, 0x29, 0x78, 0xC3]

/-- `GOLAY_PARITY` (44_golay.md R180). -/
def golayParity : List (BitVec 12) :=
  [0x8EB, 0x93E, 0xA97, 0xDC6, 0x367, 0x6CD, 0xD99, 0x3DA, 0x7B4, 0xF68, 0x63B, 0xC75]

/-- This hardware's parameter values (00_scope.md R6; log 10). -/
def hw : Params where
  b40Order := .lsbFirst
  lichCtrPos := .ctrPrefix
  punctP1 := maskP1
  punctP2 := maskP2
  punctP3 := maskP3
  randSeq := randSeq
  golayParity := golayParity
  bertPunct := .p1
  prbsForm := .fibonacci
  textIndexBase := 0
  lichBadDist := 3
  softSlice := 128

/-- The keep mask `BERT_PUNCT` stands for (00_scope.md R6, 49_pipeline_bert.md R329). -/
def bertMask (P : Params) : Bits :=
  match P.bertPunct with
  | .p1 => P.punctP1
  | .p2 => P.punctP2
  | .p3 => P.punctP3
  | .other mask => mask

end Sys2Proof.Machine
end

