-- ==== Sys2Proof/Machine/Bits.lean ====
section
/-! DEFINITION. Bits, bytes and soft bits: the notation of 00_scope.md R7 to R11 that every command shares. -/

namespace Sys2Proof.Machine

/-- `bits(B)`: the bits of a byte sequence, MSB-first (00_scope.md R8): `bits(B)[8k+j] = B[k][7-j]`. -/
def bits (B : Bytes) : Bits :=
  B.flatMap fun b => (List.range 8).map fun j => b.getLsbD (7 - j)

/-- The number whose binary digits are `s`, the first one the most significant. -/
def bitsToNat (s : Bits) : Nat := s.foldl (fun n b => 2 * n + b.toNat) 0

/-- `pack(s)`: a bit string as bytes, MSB-first, the positions past its end 0 (00_scope.md R8, 20_memory.md R65). -/
def pack (s : Bits) : Bytes :=
  (List.range ((s.length + 7) / 8)).map fun k =>
    BitVec.ofNat 8 (bitsToNat ((List.range 8).map fun j => s.getD (8 * k + j) false))

/-- The `n`-byte big-endian form of a number, reduced modulo 256^n (00_scope.md R9: `be16`, `be24`, `be48` are
`beBytes 2`, `beBytes 3`, `beBytes 6`). -/
def beBytes : Nat → Nat → Bytes
  | 0, _ => []
  | n + 1, v => BitVec.ofNat 8 (v / 256 ^ n) :: beBytes n v

/-- `BE(B)`: the number whose big-endian bytes are `B` (00_scope.md R9). -/
def beNat (B : Bytes) : Nat := B.foldl (fun n b => 256 * n + b.toNat) 0

/-- `B[i..j)`: the bytes i to j-1 of a sequence (00_scope.md R7). -/
def slice (B : Bytes) (i j : Nat) : Bytes := (B.drop i).take (j - i)

/-- `parity(v)`: the exclusive-or of all bits of v (00_scope.md R11). -/
def parity {w : Nat} (v : BitVec w) : Bool :=
  (List.range w).foldl (fun p i => p ^^ v.getLsbD i) false

/-- `popcount(v)`: the number of 1 bits in v (00_scope.md R11). -/
def popcount {w : Nat} (v : BitVec w) : Nat := (List.range w).countP v.getLsbD

/-- `hamming(a, b) = popcount(a ⊕ b)` (00_scope.md R11). -/
def hamming {w : Nat} (a b : BitVec w) : Nat := popcount (a ^^^ b)

/-- `dist(s, b)`: the distance of a soft bit from a hard bit (00_scope.md R10). -/
def dist (s : Byte) (b : Bool) : Nat := if b then 255 - s.toNat else s.toNat

/-- `slice(s)` of a soft bit: 1 when s ≥ SOFT_SLICE (00_scope.md R10). -/
def hardSlice (P : Params) (s : Byte) : Bool := P.softSlice ≤ s.toNat

/-- Hard bits become soft bits by 0 → 0 and 1 → 255 (00_scope.md R10). -/
def softBit (b : Bool) : Byte := if b then 255 else 0

/-- The number of differing positions of two bit strings, counted over the first `n`. -/
def bitErrors (n : Nat) (a e : Bits) : Nat :=
  (List.range n).countP fun i => a.getD i false != e.getD i false

end Sys2Proof.Machine
end

