-- ==== Sys2Proof/Syntax.lean ====
section
/-! DEFINITION. The commands of the M17 CORE: one constructor per row of 30_encoding.md R101 (spec/opcode_table.json),
each with the fields of the command word it uses (R90, R92, R93, R94). -/

namespace Sys2Proof

/-- A command. `len` is LEN (R94), `sched` is SCHED (R92), `soft` is S (R93). -/
inductive Instr where
  -- 40_control.md
  | nop
  | clear
  -- 42_crc.md
  | crc16 (len : BitVec 16)
  | crc16Chk (len : BitVec 16)
  -- 41_address.md
  | b40Enc (len : BitVec 16)
  | b40Dec
  | b40Decb
  -- 43_type.md
  | typeBv2
  | typePv2
  | typeBv3
  | typePv3
  | typeDet
  -- 44_golay.md
  | golayEnc
  | golayDec
  | golaySdec
  | lichEnc
  | lichSdec
  -- 45_conv_viterbi.md
  | convEnc (len : BitVec 16) (sched : BitVec 4)
  | punct (len : BitVec 16) (sched : BitVec 4)
  | viterbi (len : BitVec 16) (sched : BitVec 4)
  -- 46_interleave_randomize_prbs.md
  | intlv (len : BitVec 16) (soft : Bool)
  | rand (len : BitVec 16) (soft : Bool)
  | prbsGen (len : BitVec 16)
  | berCnt (len : BitVec 16)
  -- 47_lsf_meta.md
  | lsfBuild
  | lsfParse
  | metaPosPack
  | metaPosUnpack
  | metaEcsPack
  | metaEcsUnpack
  | aesivCtr
  | textPack (len : BitVec 16)
  | textReset
  | textAccept
  -- 48_stream_packet_ip.md
  | lichChunk
  | lichReset
  | lichAccept
  | lichAssemble
  | lichRx
  | pktBuild (len : BitVec 16)
  | pktChunk (len : BitVec 16)
  | pktReset
  | pktAccept
  | pktFlush
  | ipBuild
  | ipParse
  -- 49_pipeline_bert.md
  | lsfTx
  | lsfRx
  | strTx
  | strRx
  | pktTx
  | pktRx
  | bertTx
  | bertRx
  deriving DecidableEq, Repr

/-- Why a command word is not a command: the sub-codes of ILLEGAL_COMMAND (30_encoding.md R95 to R98,
60_exceptions.md R352). -/
inductive IllegalCommand where
  /-- OPC is not in the opcode map (R97) -/
  | reservedOpcode
  /-- a reserved bit is set, or a field the command does not use is nonzero (R95, R96) -/
  | nonzeroField
  /-- SCHED is used and is 4 or more (R92) -/
  | badSched
  deriving DecidableEq, Repr

end Sys2Proof
end

