-- ==== Sys2Proof/WellFormed.lean ====
section
/-! DEFINITION. Which terms of `Instr` stand for a well-formed command word: where SCHED is used, SCHED is at most 3
(30_encoding.md R92, R98 check 3, R101). Every other field takes every value of its width. -/

namespace Sys2Proof

/-- SCHED selects a puncture schedule: 0 to 3 (30_encoding.md R92). -/
abbrev schedOk (sched : BitVec 4) : Bool := sched.toNat ≤ 3

/-- The command passes checks 1 to 3 of 30_encoding.md R98. -/
def Instr.wellFormed : Instr → Bool
  | .convEnc _ sched => schedOk sched
  | .punct _ sched => schedOk sched
  | .viterbi _ sched => schedOk sched
  | .nop | .clear | .crc16 _ | .crc16Chk _ | .b40Enc _ | .b40Dec | .b40Decb
  | .typeBv2 | .typePv2 | .typeBv3 | .typePv3 | .typeDet
  | .golayEnc | .golayDec | .golaySdec | .lichEnc | .lichSdec
  | .intlv _ _ | .rand _ _ | .prbsGen _ | .berCnt _
  | .lsfBuild | .lsfParse | .metaPosPack | .metaPosUnpack | .metaEcsPack | .metaEcsUnpack | .aesivCtr
  | .textPack _ | .textReset | .textAccept
  | .lichChunk | .lichReset | .lichAccept | .lichAssemble | .lichRx
  | .pktBuild _ | .pktChunk _ | .pktReset | .pktAccept | .pktFlush | .ipBuild | .ipParse
  | .lsfTx | .lsfRx | .strTx | .strRx | .pktTx | .pktRx | .bertTx | .bertRx => true

end Sys2Proof
end

