-- ==== Sys2Proof/Decode.lean ====
section
/-! DEFINITION. The command word (30_encoding.md): the decoder, total on every 32-bit word and refusing by name in the
order of R98, and the encoder. -/

namespace Sys2Proof

/-- One row of the opcode map (30_encoding.md R101): the opcode, the fields it uses, and the command it stands for
with those fields given. -/
structure OpRow where
  opc : BitVec 8
  usesLen : Bool
  usesSched : Bool
  usesSoft : Bool
  make : BitVec 16 → BitVec 4 → Bool → Instr

/-- The rows of 40_control.md (30_encoding.md R101). -/
def controlRows : List OpRow := [
  ⟨0x00, false, false, false, fun _ _ _ => .nop⟩,
  ⟨0x01, false, false, false, fun _ _ _ => .clear⟩]

/-- The rows of 42_crc.md (30_encoding.md R101). -/
def crcRows : List OpRow := [
  ⟨0x08, true, false, false, fun len _ _ => .crc16 len⟩,
  ⟨0x09, true, false, false, fun len _ _ => .crc16Chk len⟩]

/-- The rows of 41_address.md (30_encoding.md R101). -/
def addressRows : List OpRow := [
  ⟨0x10, true, false, false, fun len _ _ => .b40Enc len⟩,
  ⟨0x11, false, false, false, fun _ _ _ => .b40Dec⟩,
  ⟨0x12, false, false, false, fun _ _ _ => .b40Decb⟩]

/-- The rows of 43_type.md (30_encoding.md R101). -/
def typeRows : List OpRow := [
  ⟨0x18, false, false, false, fun _ _ _ => .typeBv2⟩,
  ⟨0x19, false, false, false, fun _ _ _ => .typePv2⟩,
  ⟨0x1a, false, false, false, fun _ _ _ => .typeBv3⟩,
  ⟨0x1b, false, false, false, fun _ _ _ => .typePv3⟩,
  ⟨0x1c, false, false, false, fun _ _ _ => .typeDet⟩]

/-- The rows of 44_golay.md (30_encoding.md R101). -/
def golayRows : List OpRow := [
  ⟨0x20, false, false, false, fun _ _ _ => .golayEnc⟩,
  ⟨0x21, false, false, false, fun _ _ _ => .golayDec⟩,
  ⟨0x22, false, false, false, fun _ _ _ => .golaySdec⟩,
  ⟨0x23, false, false, false, fun _ _ _ => .lichEnc⟩,
  ⟨0x24, false, false, false, fun _ _ _ => .lichSdec⟩]

/-- The rows of 45_conv_viterbi.md (30_encoding.md R101). -/
def convRows : List OpRow := [
  ⟨0x28, true, true, false, fun len sched _ => .convEnc len sched⟩,
  ⟨0x29, true, true, false, fun len sched _ => .punct len sched⟩,
  ⟨0x2a, true, true, false, fun len sched _ => .viterbi len sched⟩]

/-- The rows of 46_interleave_randomize_prbs.md (30_encoding.md R101). -/
def frameBitRows : List OpRow := [
  ⟨0x30, true, false, true, fun len _ soft => .intlv len soft⟩,
  ⟨0x31, true, false, true, fun len _ soft => .rand len soft⟩,
  ⟨0x32, true, false, false, fun len _ _ => .prbsGen len⟩,
  ⟨0x33, true, false, false, fun len _ _ => .berCnt len⟩]

/-- The rows of 47_lsf_meta.md (30_encoding.md R101). -/
def lsfRows : List OpRow := [
  ⟨0x40, false, false, false, fun _ _ _ => .lsfBuild⟩,
  ⟨0x41, false, false, false, fun _ _ _ => .lsfParse⟩,
  ⟨0x42, false, false, false, fun _ _ _ => .metaPosPack⟩,
  ⟨0x43, false, false, false, fun _ _ _ => .metaPosUnpack⟩,
  ⟨0x44, false, false, false, fun _ _ _ => .metaEcsPack⟩,
  ⟨0x45, false, false, false, fun _ _ _ => .metaEcsUnpack⟩,
  ⟨0x46, false, false, false, fun _ _ _ => .aesivCtr⟩,
  ⟨0x47, true, false, false, fun len _ _ => .textPack len⟩,
  ⟨0x48, false, false, false, fun _ _ _ => .textReset⟩,
  ⟨0x49, false, false, false, fun _ _ _ => .textAccept⟩]

/-- The rows of 48_stream_packet_ip.md (30_encoding.md R101). -/
def streamRows : List OpRow := [
  ⟨0x50, false, false, false, fun _ _ _ => .lichChunk⟩,
  ⟨0x51, false, false, false, fun _ _ _ => .lichReset⟩,
  ⟨0x52, false, false, false, fun _ _ _ => .lichAccept⟩,
  ⟨0x53, false, false, false, fun _ _ _ => .lichAssemble⟩,
  ⟨0x54, false, false, false, fun _ _ _ => .lichRx⟩,
  ⟨0x58, true, false, false, fun len _ _ => .pktBuild len⟩,
  ⟨0x59, true, false, false, fun len _ _ => .pktChunk len⟩,
  ⟨0x5a, false, false, false, fun _ _ _ => .pktReset⟩,
  ⟨0x5b, false, false, false, fun _ _ _ => .pktAccept⟩,
  ⟨0x5c, false, false, false, fun _ _ _ => .pktFlush⟩,
  ⟨0x60, false, false, false, fun _ _ _ => .ipBuild⟩,
  ⟨0x61, false, false, false, fun _ _ _ => .ipParse⟩]

/-- The rows of 49_pipeline_bert.md (30_encoding.md R101). -/
def pipelineRows : List OpRow := [
  ⟨0x70, false, false, false, fun _ _ _ => .lsfTx⟩,
  ⟨0x71, false, false, false, fun _ _ _ => .lsfRx⟩,
  ⟨0x72, false, false, false, fun _ _ _ => .strTx⟩,
  ⟨0x73, false, false, false, fun _ _ _ => .strRx⟩,
  ⟨0x74, false, false, false, fun _ _ _ => .pktTx⟩,
  ⟨0x75, false, false, false, fun _ _ _ => .pktRx⟩,
  ⟨0x76, false, false, false, fun _ _ _ => .bertTx⟩,
  ⟨0x77, false, false, false, fun _ _ _ => .bertRx⟩]

/-- `OPMAP` (30_encoding.md R98, R101): the 54 rows. -/
def opMap : List OpRow :=
  controlRows ++ crcRows ++ addressRows ++ typeRows ++ golayRows ++ convRows ++ frameBitRows ++ lsfRows ++ streamRows
    ++ pipelineRows

/-- The column "mask" of R101: a 1 in every bit that must equal the row's match. -/
def OpRow.mask (r : OpRow) : Word :=
  (if r.usesLen then 0#16 else 0xFFFF#16) ++ 0x7#3 ++ (if r.usesSoft then 0#1 else 1#1)
    ++ (if r.usesSched then 0#4 else 0xF#4) ++ 0xFF#8

/-- The column "match" of R101: the command word with every used field 0. -/
def OpRow.matchWord (r : OpRow) : Word := r.opc.setWidth 32

/-- OPC, bits 7:0 (R90). -/
def opcField (w : Word) : BitVec 8 := w.extractLsb' 0 8

/-- SCHED, bits 11:8 (R90). -/
def schedField (w : Word) : BitVec 4 := w.extractLsb' 8 4

/-- S, bit 12 (R90). -/
def softField (w : Word) : Bool := w.getLsbD 12

/-- The reserved bits 15:13 (R90, R95). -/
def reservedField (w : Word) : BitVec 3 := w.extractLsb' 13 3

/-- LEN, bits 31:16 (R90). -/
def lenField (w : Word) : BitVec 16 := w.extractLsb' 16 16

/-- Checks 2 and 3 of 30_encoding.md R98 for a word whose opcode has the row `r`. -/
def OpRow.read (r : OpRow) (w : Word) : Except IllegalCommand Instr :=
  if reservedField w ≠ 0 then .error .nonzeroField
  else if !r.usesLen && lenField w != 0 then .error .nonzeroField
  else if !r.usesSched && schedField w != 0 then .error .nonzeroField
  else if !r.usesSoft && softField w then .error .nonzeroField
  else if r.usesSched && !schedOk (schedField w) then .error .badSched
  else .ok (r.make (lenField w) (schedField w) (softField w))

/-- `decode(w)` of 30_encoding.md R98: the command of a command word, or the first check that fails. -/
def decode (w : Word) : Except IllegalCommand Instr :=
  match opMap.find? (fun r => r.opc == opcField w) with
  | none => .error .reservedOpcode
  | some r => r.read w

/-- The instruction the decoder reads from the word whose bits are `w`, bit 0 the least significant (the host's
question). A command is one 32-bit bus word (R90, 20_memory.md R61), so there is no byte order to lay out. -/
def decodeTableWord (nbits w : Nat) : Option Instr :=
  (decode (BitVec.ofNat 32 (w % 2 ^ nbits))).toOption

/-- The opcode of a command (the column "OPC" of R101). -/
def Instr.opcode : Instr → BitVec 8
  | .nop => 0x00
  | .clear => 0x01
  | .crc16 _ => 0x08
  | .crc16Chk _ => 0x09
  | .b40Enc _ => 0x10
  | .b40Dec => 0x11
  | .b40Decb => 0x12
  | .typeBv2 => 0x18
  | .typePv2 => 0x19
  | .typeBv3 => 0x1a
  | .typePv3 => 0x1b
  | .typeDet => 0x1c
  | .golayEnc => 0x20
  | .golayDec => 0x21
  | .golaySdec => 0x22
  | .lichEnc => 0x23
  | .lichSdec => 0x24
  | .convEnc _ _ => 0x28
  | .punct _ _ => 0x29
  | .viterbi _ _ => 0x2a
  | .intlv _ _ => 0x30
  | .rand _ _ => 0x31
  | .prbsGen _ => 0x32
  | .berCnt _ => 0x33
  | .lsfBuild => 0x40
  | .lsfParse => 0x41
  | .metaPosPack => 0x42
  | .metaPosUnpack => 0x43
  | .metaEcsPack => 0x44
  | .metaEcsUnpack => 0x45
  | .aesivCtr => 0x46
  | .textPack _ => 0x47
  | .textReset => 0x48
  | .textAccept => 0x49
  | .lichChunk => 0x50
  | .lichReset => 0x51
  | .lichAccept => 0x52
  | .lichAssemble => 0x53
  | .lichRx => 0x54
  | .pktBuild _ => 0x58
  | .pktChunk _ => 0x59
  | .pktReset => 0x5a
  | .pktAccept => 0x5b
  | .pktFlush => 0x5c
  | .ipBuild => 0x60
  | .ipParse => 0x61
  | .lsfTx => 0x70
  | .lsfRx => 0x71
  | .strTx => 0x72
  | .strRx => 0x73
  | .pktTx => 0x74
  | .pktRx => 0x75
  | .bertTx => 0x76
  | .bertRx => 0x77

/-- The value of the LEN field of a command's word; 0 where the command does not use it (R94, R96). -/
def Instr.lenOperand : Instr → BitVec 16
  | .crc16 len | .crc16Chk len | .b40Enc len | .convEnc len _ | .punct len _ | .viterbi len _ | .intlv len _
  | .rand len _ | .prbsGen len | .berCnt len | .textPack len | .pktBuild len | .pktChunk len => len
  | .nop | .clear | .b40Dec | .b40Decb | .typeBv2 | .typePv2 | .typeBv3 | .typePv3 | .typeDet
  | .golayEnc | .golayDec | .golaySdec | .lichEnc | .lichSdec
  | .lsfBuild | .lsfParse | .metaPosPack | .metaPosUnpack | .metaEcsPack | .metaEcsUnpack | .aesivCtr
  | .textReset | .textAccept | .lichChunk | .lichReset | .lichAccept | .lichAssemble | .lichRx
  | .pktReset | .pktAccept | .pktFlush | .ipBuild | .ipParse
  | .lsfTx | .lsfRx | .strTx | .strRx | .pktTx | .pktRx | .bertTx | .bertRx => 0

/-- The value of the SCHED field of a command's word; 0 where the command does not use it (R92, R96). -/
def Instr.schedOperand : Instr → BitVec 4
  | .convEnc _ sched | .punct _ sched | .viterbi _ sched => sched
  | .nop | .clear | .crc16 _ | .crc16Chk _ | .b40Enc _ | .b40Dec | .b40Decb
  | .typeBv2 | .typePv2 | .typeBv3 | .typePv3 | .typeDet
  | .golayEnc | .golayDec | .golaySdec | .lichEnc | .lichSdec
  | .intlv _ _ | .rand _ _ | .prbsGen _ | .berCnt _
  | .lsfBuild | .lsfParse | .metaPosPack | .metaPosUnpack | .metaEcsPack | .metaEcsUnpack | .aesivCtr
  | .textPack _ | .textReset | .textAccept | .lichChunk | .lichReset | .lichAccept | .lichAssemble | .lichRx
  | .pktBuild _ | .pktChunk _ | .pktReset | .pktAccept | .pktFlush | .ipBuild | .ipParse
  | .lsfTx | .lsfRx | .strTx | .strRx | .pktTx | .pktRx | .bertTx | .bertRx => 0

/-- The value of the S field of a command's word; 0 where the command does not use it (R93, R96). -/
def Instr.softOperand : Instr → Bool
  | .intlv _ soft | .rand _ soft => soft
  | .nop | .clear | .crc16 _ | .crc16Chk _ | .b40Enc _ | .b40Dec | .b40Decb
  | .typeBv2 | .typePv2 | .typeBv3 | .typePv3 | .typeDet
  | .golayEnc | .golayDec | .golaySdec | .lichEnc | .lichSdec
  | .convEnc _ _ | .punct _ _ | .viterbi _ _ | .prbsGen _ | .berCnt _
  | .lsfBuild | .lsfParse | .metaPosPack | .metaPosUnpack | .metaEcsPack | .metaEcsUnpack | .aesivCtr
  | .textPack _ | .textReset | .textAccept | .lichChunk | .lichReset | .lichAccept | .lichAssemble | .lichRx
  | .pktBuild _ | .pktChunk _ | .pktReset | .pktAccept | .pktFlush | .ipBuild | .ipParse
  | .lsfTx | .lsfRx | .strTx | .strRx | .pktTx | .pktRx | .bertTx | .bertRx => false

/-- A command word from its fields, reserved bits 0 (30_encoding.md R90, R100: `(n << 16) | (S << 12) | (k << 8) | OPC`). -/
def commandWord (len : BitVec 16) (soft : Bool) (sched : BitVec 4) (opc : BitVec 8) : Word :=
  len ++ (0#3 ++ (BitVec.ofBool soft ++ (sched ++ opc)))

/-- The command word of a command (30_encoding.md R90, R96, R101). -/
def encode (i : Instr) : Word := commandWord i.lenOperand i.softOperand i.schedOperand i.opcode

end Sys2Proof
end

