-- ==== Sys2Proof/Machine/State.lean ====
section
/-! DEFINITION. The architectural state of the M17 CORE (10_state.md), as plain data, and the state right after reset
(70_reset_and_hazards.md R380). -/

namespace Sys2Proof.Machine

/-- Sub-codes of INVALID_INPUT (60_exceptions.md R352). -/
inductive InputFault where
  | badLength
  | invalidChar
  | tooLong
  | outOfRange
  | fieldRange
  | reservedRange
  deriving DecidableEq, Repr

/-- Sub-codes of REASSEMBLY (60_exceptions.md R352). -/
inductive ReassemblyFault where
  | missing
  | dupMismatch
  | gap
  | missingEnd
  | badCount
  | outOfOrder
  | short
  deriving DecidableEq, Repr

/-- The TYPE layouts (43_type.md R162), which are also the sub-codes of UNSUPPORTED_VERSION (60_exceptions.md R352). -/
inductive TypeVersion where
  | v2
  | v3
  deriving DecidableEq, Repr

/-- An error a command completes with: a kind of 60_exceptions.md R351 with its sub-code of R352. The numbers STATUS
shows are `Err.code` and `Err.sub` (Machine/Flags.lean). -/
inductive Err where
  | invalidInput (sub : InputFault)
  | crcMismatch
  | badMagic
  | decodeFailure
  | reassembly (sub : ReassemblyFault)
  | unsupportedVersion (v : TypeVersion)
  | illegalCommand (sub : IllegalCommand)
  deriving DecidableEq, Repr

/-- A memory: (address, byte) pairs, addresses strictly rising, one entry for each byte that has been written. An
unlisted byte holds a free value of Config (log 1, log 2, log 3). -/
abbrev Memory := List Host.Cell

/-- One slot of the LICH collector (10_state.md R34). -/
structure Slot where
  valid : Bool
  data : BitVec 40
  metric : Word
  deriving DecidableEq, Repr

/-- An empty slot: valid = 0, data = 0, metric = 0 (10_state.md R34, 70_reset_and_hazards.md R381). -/
def Slot.empty : Slot := { valid := false, data := 0, metric := 0 }

/-- The LICH collector (10_state.md R34). -/
structure LichCollector where
  slots : Vector Slot 6
  sid : BitVec 16
  sidValid : Bool
  deriving DecidableEq, Repr

/-- The packet reassembler (10_state.md R35). `pbuf` holds the written bytes of PBUF, keyed 0..799; `epoch` is the
model's own: which unspecified contents the others have (log 3). -/
structure PacketReassembler where
  active : Bool
  exp : BitVec 6
  pbuf : Memory
  epoch : Nat
  deriving DecidableEq, Repr

/-- The text collector (10_state.md R36). `tbuf` holds the written bytes of TBUF, keyed 0..194; `epoch` is the model's
own (log 3). -/
structure TextCollector where
  active : Bool
  cnt : BitVec 4
  next : BitVec 4
  tbuf : Memory
  epoch : Nat
  deriving DecidableEq, Repr

/-- What the host does at the block's inputs: accesses of the host port, `width` bits wide, at a 12-bit address
(20_memory.md R60), and the reset input (70_reset_and_hazards.md R380). A write carries the 32-bit data bus; an 8-bit
write uses bits 7:0 (log 16). -/
inductive HostEvent where
  | read (addr : BitVec 12) (width : Nat)
  | write (addr : BitVec 12) (width : Nat) (value : Word)
  | resetAssert
  | resetRelease
  deriving DecidableEq, Repr

/-- How the block answered the last host access. -/
inductive Reply where
  /-- there has been no access since the start -/
  | none
  /-- a read returned this value (an 8-bit read returns it in bits 7:0) -/
  | data (value : Word)
  /-- a write was accepted on the bus (with effect or without: 20_memory.md R63, R68) -/
  | written
  /-- a read took a bus error; `junk` is the unspecified data that came with it (60_exceptions.md R366, 93 U4) -/
  | readError (junk : Word)
  /-- a write took a bus error (60_exceptions.md R366) -/
  | writeError
  deriving DecidableEq, Repr

/-- The state of the block (10_state.md), with the model's own fields at the end. -/
structure State where
  /-- ARG0..ARG7 (R21) -/
  arg : Vector Word 8
  /-- RES0..RES7 (R22) -/
  res : Vector Word 8
  /-- CMDCNT (R23) -/
  cmdcnt : Word
  /-- the implemented bits 2:0 of CTRL: V3_EN, V2_EN, IRQ_EN (R25) -/
  ctrl : BitVec 3
  /-- STATUS.BUSY (R26) -/
  busy : Bool
  /-- STATUS.DONE (R26) -/
  done : Bool
  /-- STATUS.VIOL (R26) -/
  viol : Bool
  /-- STATUS.ERR with STATUS.SUB; `none` is ERR = 0, SUB = 0 (R26; log 9) -/
  error : Option Err
  /-- the CMD read-back, which is also the word of the command in flight (R27, R37); STATUS.LASTOP is its bits 7:0 -/
  cmd : Word
  /-- IBUF and OBUF, keyed by host address 0x400..0xBFF (R32, R33, 20_memory.md R60) -/
  mem : Memory
  /-- the LICH collector (R34) -/
  lich : LichCollector
  /-- the packet reassembler (R35) -/
  pkt : PacketReassembler
  /-- the text collector (R36) -/
  text : TextCollector
  /-- the reset input is asserted (70_reset_and_hazards.md R380) -/
  inReset : Bool
  /-- the model's own: which unspecified contents the unwritten bytes of IBUF and OBUF have (log 1) -/
  bufEpoch : Nat
  /-- the model's own: how many unspecified values the host port has returned (log 6) -/
  freeReads : Nat
  /-- the model's own: how the last host access was answered (log 7) -/
  reply : Reply
  /-- the model's own: what the host is still going to do, in host order (20_memory.md R71; log 4) -/
  inbox : List HostEvent
  /-- the model's own: the latency of each command still to be accepted, in host events (R388, 93 U6; log 5) -/
  latencies : List Nat
  /-- the model's own: the host events that may still come before the command in flight completes (log 5) -/
  countdown : Nat
  deriving DecidableEq, Repr

/-- Why the machine stops with a fault: never. The block reports every error in STATUS and goes on
(60_exceptions.md R354, R368), and a bus error is an answer on the host's bus that has no effect in the block (R366),
modelled as `Reply.readError` / `Reply.writeError` in a next state. So there is no constructor, which is safe: no claim
can rest on a stop that the hardware does not make. -/
inductive Fault where
  deriving DecidableEq, Repr

/-- Why the machine refuses an instruction. -/
inductive Refusal where
  /-- raised by an arm of `exec` whose instruction has no meaning yet (safe: nothing is claimed of it); no arm does -/
  | notModelled (mnemonic : String)
  deriving DecidableEq, Repr

/-- The LICH collector with every slot empty and no stream id (70_reset_and_hazards.md R381). -/
def LichCollector.empty : LichCollector := { slots := Vector.replicate 6 Slot.empty, sid := 0, sidValid := false }

/-- The idle packet reassembler whose PBUF contents are unspecified (70_reset_and_hazards.md R381). -/
def PacketReassembler.idle (epoch : Nat) : PacketReassembler := { active := false, exp := 0, pbuf := [], epoch := epoch }

/-- The idle text collector whose TBUF contents are unspecified (70_reset_and_hazards.md R381). -/
def TextCollector.idle (epoch : Nat) : TextCollector :=
  { active := false, cnt := 0, next := 0, tbuf := [], epoch := epoch }

/-- The block right after reset (70_reset_and_hazards.md R380, R381, R382; 10_state.md section 8). CTRL is 0x6: V2_EN
and V3_EN set, IRQ_EN clear. The model's own fields start empty or at 0 (logs 1, 3 to 7). -/
def State.reset : State where
  arg := Vector.replicate 8 0
  res := Vector.replicate 8 0
  cmdcnt := 0
  ctrl := 0b110
  busy := false
  done := false
  viol := false
  error := none
  cmd := 0
  mem := []
  lich := LichCollector.empty
  pkt := PacketReassembler.idle 0
  text := TextCollector.idle 0
  inReset := false
  bufEpoch := 0
  freeReads := 0
  reply := .none
  inbox := []
  latencies := []
  countdown := 0

end Sys2Proof.Machine
end

