-- ==== Sys2Proof/Machine/Ops.lean ====
section
/-! DEFINITION. The named operations over memory, registers and the command lifecycle: the primitives of
00_scope.md R11, acceptance (60_exceptions.md R350), completion with and without error (R353, R354), the acknowledge
(R359) and the reset event (70_reset_and_hazards.md R380). -/

namespace Sys2Proof.Machine

/-! ## Memory -/

/-- The byte written at an address, if one was. -/
def Memory.find : Memory → Nat → Option Byte
  | [], _ => none
  | (b, v) :: m, a => if a = b then some v else Memory.find m a

/-- Write one byte, keeping the addresses strictly rising. -/
def Memory.write : Memory → Nat → Byte → Memory
  | [], a, v => [(a, v)]
  | (b, w) :: m, a, v =>
    if a < b then (a, v) :: (b, w) :: m
    else if a = b then (a, v) :: m
    else (b, w) :: Memory.write m a v

/-- Write a byte sequence from an address on. -/
def Memory.writeBytes : Memory → Nat → Bytes → Memory
  | m, _, [] => m
  | m, a, v :: vs => Memory.writeBytes (Memory.write m a v) (a + 1) vs

/-- The canonical form: addresses strictly rising, so one entry for each written byte (log 2). -/
abbrev Memory.wf (m : Memory) : Prop := List.Pairwise (fun x y : Host.Cell => x.1 < y.1) m

/-- Every entry lies at an address from `lo` up to, not including, `hi`. -/
abbrev Memory.within (lo hi : Nat) (m : Memory) : Prop := ∀ c ∈ m, lo ≤ c.1 ∧ c.1 < hi

/-- The host address of IBUF byte 0 (20_memory.md R60). -/
def ibufBase : Nat := 0x400

/-- The host address of OBUF byte 0 (20_memory.md R60). -/
def obufBase : Nat := 0x800

/-- The byte of IBUF or OBUF at a host address: what was last written there, or the free value of a byte that nothing
has written (70_reset_and_hazards.md R382; log 1). -/
def State.byteAt (s : State) (a : Nat) : Byte := (s.mem.find a).getD (Config.bufferByte s.bufEpoch a)

/-- `IB(i)` (00_scope.md R11). -/
def State.ib (s : State) (i : Nat) : Byte := s.byteAt (ibufBase + i)

/-- Byte i of OBUF, as the host reads it (10_state.md R33). -/
def State.ob (s : State) (i : Nat) : Byte := s.byteAt (obufBase + i)

/-- `IB[i..j)` (00_scope.md R11). -/
def State.ibytes (s : State) (i j : Nat) : Bytes := (List.range (j - i)).map fun k => s.ib (i + k)

/-- `OB[i..) <- B` (00_scope.md R11): only the bytes of B are written (20_memory.md R74). -/
def State.obWrite (s : State) (i : Nat) (B : Bytes) : State :=
  { s with mem := s.mem.writeBytes (obufBase + i) B }

/-- Byte i of PBUF (10_state.md R35). -/
def PacketReassembler.byte (p : PacketReassembler) (i : Nat) : Byte :=
  (p.pbuf.find i).getD (Config.packetByte p.epoch i)

/-- `PBUF[i..j)`. -/
def PacketReassembler.bytes (p : PacketReassembler) (i j : Nat) : Bytes :=
  (List.range (j - i)).map fun k => p.byte (i + k)

/-- Byte i of TBUF (10_state.md R36). -/
def TextCollector.byte (c : TextCollector) (i : Nat) : Byte :=
  (c.tbuf.find i).getD (Config.textByte c.epoch i)

/-- `TBUF[i..j)`. -/
def TextCollector.bytes (c : TextCollector) (i j : Nat) : Bytes :=
  (List.range (j - i)).map fun k => c.byte (i + k)

/-! ## Registers and collectors -/

/-- `ARG[n]` (00_scope.md R11, 10_state.md R21). -/
def State.argReg (s : State) (n : Fin 8) : Word := s.arg[n]

/-- The value of RESn (10_state.md R22). -/
def State.resReg (s : State) (n : Fin 8) : Word := s.res[n]

/-- `RES[n] <- v` (00_scope.md R11). -/
def State.setRes (s : State) (n : Fin 8) (v : Word) : State := { s with res := s.res.set n v }

/-- `RES[n] <- v` for a number, which fits in 32 bits wherever a rule writes one (00_scope.md R11). -/
def State.setResNat (s : State) (n : Fin 8) (v : Nat) : State := s.setRes n (BitVec.ofNat 32 v)

/-- Replace the LICH collector. -/
def State.setLich (s : State) (l : LichCollector) : State := { s with lich := l }

/-- Replace the packet reassembler. -/
def State.setPkt (s : State) (p : PacketReassembler) : State := { s with pkt := p }

/-- Replace the text collector. -/
def State.setText (s : State) (c : TextCollector) : State := { s with text := c }

/-! ## Command lifecycle -/

/-- Acceptance of a command word (60_exceptions.md R350 step 1, 10_state.md R26, R27): the word is latched, BUSY = 1,
DONE = 0, ERR = 0, SUB = 0, and LASTOP, a view of the latched word, is its bits 7:0. -/
def State.latch (s : State) (w : Word) : State := { s with cmd := w, busy := true, done := false, error := none }

/-- Acceptance of a host's CMD write: the word is latched, and the command gets the next latency (R388; log 5). -/
def State.accept (s : State) (w : Word) : State :=
  { s.latch w with countdown := s.latencies.headD 0, latencies := s.latencies.tail }

/-- Completion (60_exceptions.md R350 step 4, R353, R354): ERR and SUB are written (`none` is 0 and 0), BUSY = 0,
DONE = 1 and CMDCNT counts the command modulo 2^32. -/
def State.complete (s : State) (e : Option Err) : State :=
  { s with busy := false, done := true, error := e, cmdcnt := s.cmdcnt + 1 }

/-- Where a command's pseudocode ends: the state with every write it made, and the error it raised, if it did. -/
structure Run where
  state : State
  error : Option Err
  deriving DecidableEq, Repr

/-- The pseudocode reaches its end (60_exceptions.md R353). -/
def State.ok (s : State) : Run := { state := s, error := none }

/-- `raise E(sub)` (00_scope.md R11, 60_exceptions.md R354): the pseudocode stops here, and the writes made before
stay. -/
def State.raise (s : State) (e : Err) : Run := { state := s, error := some e }

/-- The pseudocode ends with a `raise` exactly when a check found an error. -/
def State.raiseIf (s : State) (e : Option Err) : Run := { state := s, error := e }

/-- The completion of a command whose pseudocode has ended: TAKING THE EXCEPTION where it raised an error, a normal
completion where it did not (60_exceptions.md R353, R354). Nothing but BUSY, DONE, ERR, SUB and CMDCNT changes. -/
def Run.finish (r : Run) : Host.Outcome State Fault Refusal := .next (r.state.complete r.error)

/-- A command word that fails decode completes with ILLEGAL_COMMAND and no other effect (60_exceptions.md R356). -/
def rejectCommand (e : IllegalCommand) (s : State) : Host.Outcome State Fault Refusal :=
  (s.raise (.illegalCommand e)).finish

/-- A host write to STATUS (10_state.md R26): bit 1 clears DONE, bit 2 clears VIOL, the rest is ignored. This is also
the acknowledge, the analogue of a return from exception (60_exceptions.md R359): it restores nothing. -/
def State.writeStatus (s : State) (v : Word) : State :=
  { s with done := s.done && !v.getLsbD 1, viol := s.viol && !v.getLsbD 2 }

/-- It is the engine's turn: a command is in flight, reset is not asserted, and no further host event comes before the
command completes (60_exceptions.md R350, 70_reset_and_hazards.md R388; log 5). -/
def State.engineTurn (s : State) : Bool :=
  s.busy && !s.inReset && (s.countdown == 0 || s.inbox.isEmpty)

/-- The reset event (70_reset_and_hazards.md R380 to R382): every piece of state takes its reset value, a command in
flight is abandoned, and the contents of IBUF, OBUF, PBUF and TBUF are unspecified anew. What the host is still going
to do, and the model's counter of unspecified values, are not the block's state and stay. -/
def State.afterReset (s : State) : State :=
  { State.reset with
    pkt := PacketReassembler.idle (s.pkt.epoch + 1)
    text := TextCollector.idle (s.text.epoch + 1)
    bufEpoch := s.bufEpoch + 1
    freeReads := s.freeReads
    reply := s.reply
    inbox := s.inbox
    latencies := s.latencies }

/-- The command word `w` accepted and about to run: the next step is the engine's (log 4). -/
def State.withCommand (s : State) (w : Word) : State := { s.latch w with countdown := 0, inReset := false }

end Sys2Proof.Machine
end

