-- ==== Sys2Proof/Machine/Flags.lean ====
section
/-! DEFINITION. The status and control registers as the host reads them (10_state.md R25 to R31), and the IRQ line
(R40). -/

namespace Sys2Proof.Machine

/-- The sub-code of an INVALID_INPUT (60_exceptions.md R352). -/
def InputFault.code : InputFault → BitVec 8
  | .badLength => 1
  | .invalidChar => 2
  | .tooLong => 3
  | .outOfRange => 4
  | .fieldRange => 5
  | .reservedRange => 6

/-- The sub-code of a REASSEMBLY error (60_exceptions.md R352). -/
def ReassemblyFault.code : ReassemblyFault → BitVec 8
  | .missing => 1
  | .dupMismatch => 2
  | .gap => 3
  | .missingEnd => 4
  | .badCount => 5
  | .outOfOrder => 6
  | .short => 7

/-- The sub-code of an UNSUPPORTED_VERSION (60_exceptions.md R352). -/
def TypeVersion.sub : TypeVersion → BitVec 8
  | .v2 => 1
  | .v3 => 2

/-- The sub-code of an ILLEGAL_COMMAND (60_exceptions.md R352). -/
def illegalSub : IllegalCommand → BitVec 8
  | .reservedOpcode => 1
  | .nonzeroField => 2
  | .badSched => 3

/-- ERR: the error code (60_exceptions.md R351). -/
def Err.code : Err → BitVec 4
  | .invalidInput _ => 1
  | .crcMismatch => 2
  | .badMagic => 3
  | .decodeFailure => 4
  | .reassembly _ => 5
  | .unsupportedVersion _ => 6
  | .illegalCommand _ => 7

/-- SUB: the sub-code (60_exceptions.md R351, R352). -/
def Err.sub : Err → BitVec 8
  | .invalidInput f => f.code
  | .crcMismatch => 0
  | .badMagic => 0
  | .decodeFailure => 0
  | .reassembly f => f.code
  | .unsupportedVersion v => v.sub
  | .illegalCommand f => illegalSub f

/-- STATUS.ERR, bits 11:8 (10_state.md R26): 0 after a command that completed without error. -/
def State.errField (s : State) : BitVec 4 :=
  match s.error with
  | none => 0
  | some e => e.code

/-- STATUS.SUB, bits 23:16 (10_state.md R26). -/
def State.subField (s : State) : BitVec 8 :=
  match s.error with
  | none => 0
  | some e => e.sub

/-- STATUS.ERRF, bit 3: equals (ERR ≠ 0) (10_state.md R26). -/
def State.errFlag (s : State) : Bool := s.errField != 0

/-- STATUS.LASTOP, bits 31:24: CMD[7:0] of the last accepted command (10_state.md R26). -/
def State.lastop (s : State) : BitVec 8 := s.cmd.extractLsb' 0 8

/-- STATUS (10_state.md R26): LASTOP 31:24, SUB 23:16, reserved 15:12, ERR 11:8, reserved 7:4, ERRF 3, VIOL 2, DONE 1,
BUSY 0. -/
def State.statusWord (s : State) : Word :=
  s.lastop ++ (s.subField ++ (0#4 ++ (s.errField ++ (0#4 ++ (BitVec.ofBool s.errFlag ++ (BitVec.ofBool s.viol
    ++ (BitVec.ofBool s.done ++ BitVec.ofBool s.busy)))))))

/-- CTRL.IRQ_EN (10_state.md R25). -/
def State.irqEn (s : State) : Bool := s.ctrl.getLsbD 0

/-- CTRL.V2_EN (10_state.md R25). -/
def State.v2En (s : State) : Bool := s.ctrl.getLsbD 1

/-- CTRL.V3_EN (10_state.md R25). -/
def State.v3En (s : State) : Bool := s.ctrl.getLsbD 2

/-- CTRL as the host reads it: bits 31:3 are 0 (10_state.md R25). -/
def State.ctrlWord (s : State) : Word := s.ctrl.setWidth 32

/-- The IRQ line: DONE and IRQ_EN (10_state.md R40, 60_exceptions.md R358). -/
def State.irq (s : State) : Bool := s.done && s.irqEn

/-- The slot-valid bitmap `Σ_k SLOT[k].valid << k` (10_state.md R28, 48_stream_packet_ip.md R286). -/
def LichCollector.bitmap (l : LichCollector) : BitVec 6 :=
  BitVec.ofBool l.slots[5].valid ++ (BitVec.ofBool l.slots[4].valid ++ (BitVec.ofBool l.slots[3].valid
    ++ (BitVec.ofBool l.slots[2].valid ++ (BitVec.ofBool l.slots[1].valid ++ BitVec.ofBool l.slots[0].valid))))

/-- LICH_STAT (10_state.md R28): SID 31:16, SID_VALID 8, VALID 5:0. -/
def LichCollector.stat (l : LichCollector) : Word :=
  l.sid ++ (0#7 ++ (BitVec.ofBool l.sidValid ++ (0#2 ++ l.bitmap)))

/-- PKT_STAT (10_state.md R29): HELD = 25·EXP 25:16, EXP 13:8, ACTIVE 0 (48_stream_packet_ip.md R291). -/
def PacketReassembler.stat (p : PacketReassembler) : Word :=
  0#6 ++ (BitVec.ofNat 10 (25 * p.exp.toNat) ++ (0#2 ++ (p.exp ++ (0#7 ++ BitVec.ofBool p.active))))

/-- TEXT_STAT (10_state.md R30): HELD = 13·NEXT 23:16, NEXT 11:8, CNT 7:4, ACTIVE 0 (47_lsf_meta.md R258). -/
def TextCollector.stat (c : TextCollector) : Word :=
  0#8 ++ (BitVec.ofNat 8 (13 * c.next.toNat) ++ (0#4 ++ (c.next ++ (c.cnt ++ (0#3 ++ BitVec.ofBool c.active)))))

/-- The code of `BERT_PUNCT` in PARAM (10_state.md R31). -/
def bertPunctCode : BertPunct → BitVec 4
  | .p1 => 1
  | .p2 => 2
  | .p3 => 3
  | .other _ => 0

/-- PARAM (10_state.md R31), from the parameter values. -/
def paramWord (P : Params) : Word :=
  0#8 ++ (BitVec.ofNat 8 P.softSlice ++ (BitVec.ofNat 8 P.lichBadDist ++ (bertPunctCode P.bertPunct
    ++ (BitVec.ofNat 1 P.textIndexBase ++ (BitVec.ofBool (P.prbsForm == .galois)
    ++ (BitVec.ofBool (P.lichCtrPos == .ctrSuffix) ++ BitVec.ofBool (P.b40Order == .msbFirst)))))))

end Sys2Proof.Machine
end

