-- ==== Sys2Proof/Machine/Operands.lean ====
section
/-! DEFINITION. The operand forms of the commands: fields of ARG registers, bytes and bit strings of IBUF, and the
results that several commands write in the same way. -/

namespace Sys2Proof.Machine

/-- `ARG[n][31:lo]`, the part of an argument register that a command requires to be 0 (10_state.md R21). -/
def State.argHigh (s : State) (n : Fin 8) (lo : Nat) : Nat := (s.argReg n).toNat >>> lo

/-- `ARG[n][w-1:0]` as a `w`-bit value. -/
def State.argField (s : State) (n : Fin 8) (w : Nat) : BitVec w := (s.argReg n).setWidth w

/-- A packed bit-string operand `bits(IB[i..i+⌈n/8⌉))[0..n)`: the unused low bits of the last byte are ignored
(20_memory.md R65). -/
def State.ibits (s : State) (i n : Nat) : Bits := (bits (s.ibytes i (i + (n + 7) / 8))).take n

/-- `RES[lo] <- n[31:0]; RES[hi] <- n[47:32]`: a 48-bit address in two registers (20_memory.md R66). -/
def State.setResAddr (s : State) (lo hi : Fin 8) (n : Nat) : State :=
  (s.setResNat lo (n % 2 ^ 32)).setResNat hi (n / 2 ^ 32)

/-- The 48-bit address held in two argument registers (20_memory.md R66): low 32 bits, then bits 15:0 of the next. -/
def State.argAddr (s : State) (lo hi : Fin 8) : Nat :=
  (s.argField hi 16).toNat * 2 ^ 32 + (s.argReg lo).toNat

end Sys2Proof.Machine
end

