-- ==== Sys2Proof/Machine/Address.lean ====
section
/-! DEFINITION. 41_address.md: base-40 addresses, B40_ENC, B40_DEC and B40_DECB. -/

namespace Sys2Proof.Machine

/-- `idx40(c)`: the base-40 index of a byte, if it is in the alphabet (41_address.md R130). -/
def idx40 (c : Byte) : Option Nat := alphabet40.findIdx? (· == c)

/-- The byte is in the base-40 alphabet (41_address.md R130). -/
def inAlphabet (c : Byte) : Bool := (idx40 c).isSome

/-- The index of a byte of the alphabet (0 for any other, which no rule asks for). -/
def digit40 (c : Byte) : Nat := (idx40 c).getD 0

/-- `A40[i]` (41_address.md R130). -/
def a40 (i : Nat) : Byte := alphabet40.getD i 0x20

/-- The end of the regular range, 40^9 (41_address.md R131). -/
def regularEnd : Nat := 40 ^ 9

/-- The end of the hash range, 40^9 + 40^8 (41_address.md R131). -/
def hashEnd : Nat := 40 ^ 9 + 40 ^ 8

/-- The address classes a command reports (41_address.md R131). -/
inductive AddressClass where
  | regular
  | hash
  | broadcast
  | null
  deriving DecidableEq, Repr

/-- The class code of 41_address.md R131. -/
def AddressClass.code : AddressClass → Nat
  | .regular => 0
  | .hash => 1
  | .broadcast => 2
  | .null => 3

/-- `enc40(t)` (41_address.md R132). -/
def enc40 (P : Params) (t : Bytes) : Nat :=
  match P.b40Order with
  | .lsbFirst => t.foldr (fun c n => n * 40 + digit40 c) 0
  | .msbFirst => t.foldl (fun n c => n * 40 + digit40 c) 0

/-- The base-40 digits of a number as alphabet bytes, least significant first, at most `fuel` of them: the loop of
`dec40` (41_address.md R133). -/
def digits40 : Nat → Nat → Bytes
  | 0, _ => []
  | fuel + 1, m => if m = 0 then [] else a40 (m % 40) :: digits40 fuel (m / 40)

/-- Drop the trailing bytes equal to `c`. -/
def trimEnd (c : Byte) (d : Bytes) : Bytes := (d.reverse.dropWhile (· == c)).reverse

/-- `dec40(m)` for m < 40^9, which has at most 9 digits (41_address.md R133; log 15). -/
def dec40 (P : Params) (m : Nat) : Bytes :=
  let d := digits40 9 m
  trimEnd 0x20 (match P.b40Order with
    | .lsbFirst => d
    | .msbFirst => d.reverse)

/-- The text, the numeric and the class of a callsign (41_address.md R134), or the error. -/
def b40Encode (P : Params) (t : Bytes) : Except Err (Nat × AddressClass) :=
  if t = broadcastText then .ok (broadcastAddress, .broadcast)
  else
    match t with
    | 0x23#8 :: rest =>
      if rest.all inAlphabet then .ok (regularEnd + enc40 P rest, .hash) else .error (.invalidInput .invalidChar)
    | _ =>
      if t.all inAlphabet then
        let n := enc40 P t
        .ok (n, if n = 0 then .null else .regular)
      else .error (.invalidInput .invalidChar)

/-- The pseudocode of B40_ENC (41_address.md R134). -/
def b40EncRun (P : Params) (len : BitVec 16) (s : State) : Run :=
  if len.toNat > 9 then s.raise (.invalidInput .tooLong)
  else
    match b40Encode P (s.ibytes 0 len.toNat) with
    | .error e => s.raise e
    | .ok (n, cls) => (((s.setResAddr 0 1 n).setResNat 2 cls.code).obWrite 0 (beBytes 6 n)).ok

/-- B40_ENC (41_address.md R134). -/
def execB40Enc (len : BitVec 16) (s : State) : Host.Outcome State Fault Refusal := (b40EncRun hw len s).finish

/-- The text and class of a numeric address below 2^48 (41_address.md R131, R135), or RESERVED_RANGE. -/
def b40Text (P : Params) (n : Nat) : Except Err (Bytes × AddressClass) :=
  if n = broadcastAddress then .ok (broadcastText, .broadcast)
  else if n ≥ hashEnd then .error (.invalidInput .reservedRange)
  else if n ≥ regularEnd then .ok (0x23 :: dec40 P (n - regularEnd), .hash)
  else if n = 0 then .ok ([], .null)
  else .ok (dec40 P n, .regular)

/-- `b40_decode_common(n)` (41_address.md R135), shared by B40_DEC and B40_DECB. -/
def b40DecodeCommon (P : Params) (n : Nat) (s : State) : Run :=
  match b40Text P n with
  | .error e => s.raise e
  | .ok (t, cls) =>
    ((((s.obWrite 0 t).setResNat 0 t.length).setResNat 2 cls.code).setResAddr 4 5 n).ok

/-- The pseudocode of B40_DEC (41_address.md R135). -/
def b40DecRun (P : Params) (s : State) : Run :=
  if s.argHigh 1 16 ≠ 0 then s.raise (.invalidInput .outOfRange)
  else b40DecodeCommon P (s.argAddr 0 1) s

/-- B40_DEC (41_address.md R135). -/
def execB40Dec (s : State) : Host.Outcome State Fault Refusal := (b40DecRun hw s).finish

/-- The pseudocode of B40_DECB (41_address.md R136). -/
def b40DecbRun (P : Params) (s : State) : Run := b40DecodeCommon P (beNat (s.ibytes 0 6)) s

/-- B40_DECB (41_address.md R136). -/
def execB40Decb (s : State) : Host.Outcome State Fault Refusal := (b40DecbRun hw s).finish

end Sys2Proof.Machine
end

