-- ==== Sys2Proof/Machine/Control.lean ====
section
/-! DEFINITION. 40_control.md: NOP and CLEAR. -/

namespace Sys2Proof.Machine

/-- NOP (40_control.md R120): the common completion only. -/
def execNop (s : State) : Host.Outcome State Fault Refusal := s.ok.finish

/-- `for n in 0..7: RES[n] <- 0` (40_control.md R121). -/
def State.clearRes (s : State) : State := { s with res := Vector.replicate 8 0 }

/-- The pseudocode of CLEAR (40_control.md R121). The contents of PBUF and TBUF become unspecified: each gets a new
epoch (93 U2; log 3). -/
def clearRun (s : State) : Run :=
  ((((s.setLich LichCollector.empty).setPkt (PacketReassembler.idle (s.pkt.epoch + 1))).setText
    (TextCollector.idle (s.text.epoch + 1))).clearRes).ok

/-- CLEAR (40_control.md R121). -/
def execClear (s : State) : Host.Outcome State Fault Refusal := (clearRun s).finish

end Sys2Proof.Machine
end

