-- ==== Sys2Proof/Machine/Conv.lean ====
section
/-! DEFINITION. 45_conv_viterbi.md: the convolutional encoder, puncturing, the soft-decision Viterbi decoder, and their
commands. -/

namespace Sys2Proof.Machine

/-- Generator G1 (45_conv_viterbi.md R200). -/
def genG1 : BitVec 5 := 0x19

/-- Generator G2 (45_conv_viterbi.md R200). -/
def genG2 : BitVec 5 := 0x17

/-- The 5-bit register `(s << 1) | b`: R[0] the newest bit, R[4] the oldest (45_conv_viterbi.md R200). -/
def convRegister (st : BitVec 4) (b : Bool) : BitVec 5 := st.concat b

/-- The two coded bits of one step, G1's first (45_conv_viterbi.md R200, R206 `expected`). -/
def convOut (st : BitVec 4) (b : Bool) : Bool × Bool :=
  (parity (convRegister st b &&& genG1), parity (convRegister st b &&& genG2))

/-- The next encoder state, `R & 0xF` (45_conv_viterbi.md R200). -/
def convNext (st : BitVec 4) (b : Bool) : BitVec 4 := (convRegister st b).setWidth 4

/-- The encoder from a state on, over the bits it is given. -/
def convFrom : BitVec 4 → Bits → Bits
  | _, [] => []
  | st, b :: u => (convOut st b).1 :: (convOut st b).2 :: convFrom (convNext st b) u

/-- `conv(u)` (45_conv_viterbi.md R200): from state 0, over the data and four flush zeros. -/
def conv (u : Bits) : Bits := convFrom 0 (u ++ List.replicate 4 false)

/-- `P[i mod |P|]` (45_conv_viterbi.md R202). -/
def maskBit (P : Bits) (i : Nat) : Bool := P.getD (i % P.length) false

/-- The elements of `c` that the mask keeps, the first element standing at position `i`. -/
def punctureFrom {α : Type} (P : Bits) : Nat → List α → List α
  | _, [] => []
  | i, x :: c => if maskBit P i then x :: punctureFrom P (i + 1) c else punctureFrom P (i + 1) c

/-- `puncture(c, P)` (45_conv_viterbi.md R203). -/
def puncture {α : Type} (P : Bits) (c : List α) : List α := punctureFrom P 0 c

/-- `kept(P, n)` (45_conv_viterbi.md R203). -/
def kept (P : Bits) (n : Nat) : Nat := (List.range n).countP (maskBit P)

/-- The keep mask SCHED selects (30_encoding.md R92, 45_conv_viterbi.md R202): NONE, P1, P2, P3. A reserved SCHED never
gets here (R98 check 3). -/
def schedMask (P : Params) (sched : BitVec 4) : Bits :=
  match sched.toNat with
  | 1 => P.punctP1
  | 2 => P.punctP2
  | 3 => P.punctP3
  | _ => [true]

/-- What the spec holds parameter values to, whichever they are: the kept counts and lengths of the puncture masks
(45_conv_viterbi.md R202) and the domains of 00_scope.md R6, a mask having at least one position. `hw` meets it. A claim
over parameter values takes it as a hypothesis (log 10). -/
abbrev ParamsOk (P : Params) : Prop :=
  (P.punctP1.length = 61 ∧ kept P.punctP1 488 = 368)
  ∧ (P.punctP2.length = 12 ∧ kept P.punctP2 296 = 272)
  ∧ (P.punctP3.length = 8 ∧ kept P.punctP3 420 = 368)
  ∧ bertMask P ≠ [] ∧ P.randSeq.length = 46 ∧ P.golayParity.length = 12
  ∧ P.textIndexBase ≤ 1 ∧ P.lichBadDist ≤ 24 ∧ 1 ≤ P.softSlice ∧ P.softSlice ≤ 255

/-- A position of a depunctured frame: a soft byte, or `none` for the marker ERASED (00_scope.md R10,
45_conv_viterbi.md R204). -/
abbrev SoftPos := Option Byte

/-- The positions `i`, `i+1`, … of a depunctured frame, `n` of them. -/
def depunctureFrom (P : Bits) : Nat → Nat → Bytes → List SoftPos
  | _, 0, _ => []
  | i, n + 1, S =>
    if maskBit P i then some (S.headD 0) :: depunctureFrom P (i + 1) n S.tail
    else none :: depunctureFrom P (i + 1) n S

/-- `depuncture(S, P, C)` (45_conv_viterbi.md R204). -/
def depuncture (P : Bits) (C : Nat) (S : Bytes) : List SoftPos := depunctureFrom P 0 C S

/-- The distance of a position from a coded bit: 0 for ERASED (45_conv_viterbi.md R205). -/
def posDist (x : SoftPos) (e : Bool) : Nat :=
  match x with
  | none => 0
  | some v => dist v e

/-- `bm` (45_conv_viterbi.md R205). -/
def branchMetric (x : SoftPos × SoftPos) (e : Bool × Bool) : Nat := posDist x.1 e.1 + posDist x.2 e.2

/-- A path metric: a natural, or `none` for +∞ (45_conv_viterbi.md R206). -/
abbrev PathMetric := Option Nat

/-- +∞ plus any value is +∞ (45_conv_viterbi.md R206). -/
def PathMetric.add (m : PathMetric) (n : Nat) : PathMetric := m.map (· + n)

/-- The order of the metrics: +∞ is above every natural, and +∞ ≤ +∞ (45_conv_viterbi.md R206). -/
def PathMetric.le (a b : PathMetric) : Bool :=
  match a, b with
  | _, none => true
  | none, some _ => false
  | some x, some y => x ≤ y

/-- `p_lo`, the lower-numbered predecessor of state q (45_conv_viterbi.md R206). -/
def predLo (q : Nat) : Nat := q / 2

/-- `p_hi`, the higher-numbered predecessor of state q: q >> 1 with bit 3 set (45_conv_viterbi.md R206). -/
def predHi (q : Nat) : Nat := q / 2 + 8

/-- The metric of reaching state q from the predecessor p on the pair x (45_conv_viterbi.md R206). -/
def pathThrough (pm : List PathMetric) (x : SoftPos × SoftPos) (p q : Nat) : PathMetric :=
  (pm.getD p none).add (branchMetric x (convOut (BitVec.ofNat 4 p) (q % 2 == 1)))

/-- Add-compare-select for one state: the survivor's metric, and whether it came from p_hi. A tie goes to p_lo
(45_conv_viterbi.md R206). -/
def acsState (pm : List PathMetric) (x : SoftPos × SoftPos) (q : Nat) : PathMetric × Bool :=
  let clo := pathThrough pm x (predLo q) q
  let chi := pathThrough pm x (predHi q) q
  if clo.le chi then (clo, false) else (chi, true)

/-- `acs` (45_conv_viterbi.md R206): the 16 survivors of one step, with their decisions. -/
def acs (pm : List PathMetric) (x : SoftPos × SoftPos) : List (PathMetric × Bool) :=
  (List.range 16).map (acsState pm x)

/-- The forward pass: the final metrics, and the decisions of every step, the latest first. -/
def viterbiForward : List (SoftPos × SoftPos) → List PathMetric → List (List Bool) → List PathMetric × List (List Bool)
  | [], pm, decs => (pm, decs)
  | x :: xs, pm, decs =>
    let survivors := acs pm x
    viterbiForward xs (survivors.map Prod.fst) (survivors.map Prod.snd :: decs)

/-- The traceback over the decisions, the latest first, from state q; `v` holds the bits already found, which come
later (45_conv_viterbi.md R207). -/
def traceback : List (List Bool) → Nat → Bits → Bits
  | [], _, v => v
  | d :: ds, q, v => traceback ds (if d.getD q false then predHi q else predLo q) ((q % 2 == 1) :: v)

/-- The positions of a frame, two a step. -/
def pairUp {α : Type} : List α → List (α × α)
  | a :: b :: xs => (a, b) :: pairUp xs
  | _ => []

/-- The initial metrics: 0 for state 0, +∞ elsewhere (45_conv_viterbi.md R206). -/
def initialMetrics : List PathMetric := some 0 :: List.replicate 15 none

/-- `viterbi(S, N, P)` (45_conv_viterbi.md R207): the N decoded bits and the final metric of state 0, which is always
finite. -/
def viterbi (P : Bits) (N : Nat) (S : Bytes) : Bits × Nat :=
  let out := viterbiForward (pairUp (depuncture P (2 * (N + 4)) S)) initialMetrics []
  ((traceback out.2 0 []).take N, ((out.1.getD 0 none).getD 0))

/-- Check 3 of 30_encoding.md R98, then the command: no well-formed word fails it. -/
def withSched (sched : BitVec 4) (s : State) (run : Run) : Run :=
  if schedOk sched then run else s.raise (.illegalCommand .badSched)

/-- The pseudocode of CONV_ENC (45_conv_viterbi.md R208). -/
def convEncRun (P : Params) (len : BitVec 16) (sched : BitVec 4) (s : State) : Run :=
  withSched sched s <|
    if len.toNat > vitNmax then s.raise (.invalidInput .badLength)
    else
      let c := puncture (schedMask P sched) (conv (s.ibits 0 len.toNat))
      ((s.obWrite 0 (pack c)).setResNat 0 c.length).ok

/-- CONV_ENC (45_conv_viterbi.md R208). -/
def execConvEnc (len : BitVec 16) (sched : BitVec 4) (s : State) : Host.Outcome State Fault Refusal :=
  (convEncRun hw len sched s).finish

/-- The pseudocode of PUNCT (45_conv_viterbi.md R209). -/
def punctRun (P : Params) (len : BitVec 16) (sched : BitVec 4) (s : State) : Run :=
  withSched sched s <|
    if len.toNat > 8 * ibufSize then s.raise (.invalidInput .badLength)
    else
      let c := puncture (schedMask P sched) (s.ibits 0 len.toNat)
      ((s.obWrite 0 (pack c)).setResNat 0 c.length).ok

/-- PUNCT (45_conv_viterbi.md R209). -/
def execPunct (len : BitVec 16) (sched : BitVec 4) (s : State) : Host.Outcome State Fault Refusal :=
  (punctRun hw len sched s).finish

/-- The pseudocode of VITERBI (45_conv_viterbi.md R210). -/
def viterbiRun (P : Params) (len : BitVec 16) (sched : BitVec 4) (s : State) : Run :=
  withSched sched s <|
    let N := len.toNat
    if N > vitNmax then s.raise (.invalidInput .badLength)
    else
      let mask := schedMask P sched
      let K := kept mask (2 * (N + 4))
      let r := viterbi mask N (s.ibytes 0 K)
      ((((s.obWrite 0 (pack r.1)).setResNat 0 r.2).setResNat 1 N).setResNat 2 K).ok

/-- VITERBI (45_conv_viterbi.md R210). -/
def execViterbi (len : BitVec 16) (sched : BitVec 4) (s : State) : Host.Outcome State Fault Refusal :=
  (viterbiRun hw len sched s).finish

end Sys2Proof.Machine
end

