-- ==== Sys2Proof/Machine/Crc.lean ====
section
/-! DEFINITION. 42_crc.md: the M17 CRC-16, CRC16 and CRC16_CHK. -/

namespace Sys2Proof.Machine

/-- One bit of the CRC register (42_crc.md R150): polynomial 0x5935. -/
def crcBit (r : BitVec 16) (b : Bool) : BitVec 16 :=
  if (r.getLsbD 15 ^^ b) then (r <<< 1) ^^^ 0x5935 else r <<< 1

/-- `crc16(B)` (42_crc.md R150): initial register 0xFFFF, bits MSB-first from each byte, no reflection, no final XOR. -/
def crc16 (B : Bytes) : BitVec 16 := (bits B).foldl crcBit 0xFFFF

/-- `be16(crc16(B))`, the CRC the block appends after the covered bytes (42_crc.md R153). -/
def crcBytes (B : Bytes) : Bytes := beBytes 2 (crc16 B).toNat

/-- The pseudocode of CRC16 (42_crc.md R151). -/
def crc16Run (len : BitVec 16) (s : State) : Run :=
  if len.toNat > ibufSize then s.raise (.invalidInput .badLength)
  else
    let c := crc16 (s.ibytes 0 len.toNat)
    ((s.setRes 0 (c.setWidth 32)).obWrite 0 (beBytes 2 c.toNat)).ok

/-- CRC16 (42_crc.md R151). -/
def execCrc16 (len : BitVec 16) (s : State) : Host.Outcome State Fault Refusal := (crc16Run len s).finish

/-- The pseudocode of CRC16_CHK (42_crc.md R152): both results are written on a mismatch as well. -/
def crc16ChkRun (len : BitVec 16) (s : State) : Run :=
  let L := len.toNat
  if L < 2 ∨ L > ibufSize then s.raise (.invalidInput .badLength)
  else
    let c := crc16 (s.ibytes 0 (L - 2))
    let t := beNat (s.ibytes (L - 2) L)
    ((s.setRes 0 (c.setWidth 32)).setResNat 1 t).raiseIf (if c.toNat ≠ t then some .crcMismatch else none)

/-- CRC16_CHK (42_crc.md R152). -/
def execCrc16Chk (len : BitVec 16) (s : State) : Host.Outcome State Fault Refusal := (crc16ChkRun len s).finish

end Sys2Proof.Machine
end

