-- ==== Sys2Proof/Machine/FrameBits.lean ====
section
/-! DEFINITION. 46_interleave_randomize_prbs.md: the interleaver, the randomizer, the BERT PRBS, and their commands. -/

namespace Sys2Proof.Machine

/-- The number of coded bits of a frame (46_interleave_randomize_prbs.md R230). -/
def frameBits : Nat := 368

/-- The QPP permutation `π(i) = (45·i + 92·i²) mod 368` (46_interleave_randomize_prbs.md R230). -/
def qpp (i : Nat) : Nat := (45 * i + 92 * i ^ 2) % 368

/-- `interleave(x)` of 368 elements: `y[i] = x[π(i)]` (46_interleave_randomize_prbs.md R231). `z` stands for an element
that is not there, which happens for no input of 368. -/
def interleave {α : Type} (z : α) (x : List α) : List α := (List.range frameBits).map fun i => x.getD (qpp i) z

/-- `rb`: the 368-bit expansion of RAND_SEQ (46_interleave_randomize_prbs.md R232). -/
def randBits (P : Params) : Bits := bits P.randSeq

/-- `randomize_hard(x)` (46_interleave_randomize_prbs.md R233). -/
def randomizeHard (P : Params) (x : Bits) : Bits := List.zipWith (fun b r => b ^^ r) x (randBits P)

/-- `randomize_soft(x)` (46_interleave_randomize_prbs.md R233). -/
def randomizeSoft (P : Params) (x : Bytes) : Bytes :=
  List.zipWith (fun v r => if r then 255 - v else v) x (randBits P)

/-- One step of the PRBS register: the output bit and the next register (46_interleave_randomize_prbs.md R234). -/
def prbsStep (P : Params) (r : BitVec 9) : Bool × BitVec 9 :=
  match P.prbsForm with
  | .fibonacci =>
    let b := r.getLsbD 8 ^^ r.getLsbD 4
    (b, (r <<< 1) ||| (BitVec.ofBool b).setWidth 9)
  | .galois =>
    let b := r.getLsbD 0
    (b, if b then (r >>> 1) ^^^ 0x110 else r >>> 1)

/-- `prbs(n, seed)`: n bits and the final register (46_interleave_randomize_prbs.md R234). -/
def prbs (P : Params) : Nat → BitVec 9 → Bits × BitVec 9
  | 0, r => ([], r)
  | n + 1, r =>
    let st := prbsStep P r
    let rest := prbs P n st.2
    (st.1 :: rest.1, rest.2)

/-- The pseudocode of INTLV (46_interleave_randomize_prbs.md R235). -/
def intlvRun (len : BitVec 16) (soft : Bool) (s : State) : Run :=
  if len.toNat ≠ frameBits then s.raise (.invalidInput .badLength)
  else if soft then (s.obWrite 0 (interleave 0 (s.ibytes 0 368))).ok
  else (s.obWrite 0 (pack (interleave false (bits (s.ibytes 0 46))))).ok

/-- INTLV (46_interleave_randomize_prbs.md R235). -/
def execIntlv (len : BitVec 16) (soft : Bool) (s : State) : Host.Outcome State Fault Refusal :=
  (intlvRun len soft s).finish

/-- The pseudocode of RAND (46_interleave_randomize_prbs.md R236). -/
def randRun (P : Params) (len : BitVec 16) (soft : Bool) (s : State) : Run :=
  if len.toNat ≠ frameBits then s.raise (.invalidInput .badLength)
  else if soft then (s.obWrite 0 (randomizeSoft P (s.ibytes 0 368))).ok
  else (s.obWrite 0 (pack (randomizeHard P (bits (s.ibytes 0 46))))).ok

/-- RAND (46_interleave_randomize_prbs.md R236). -/
def execRand (len : BitVec 16) (soft : Bool) (s : State) : Host.Outcome State Fault Refusal :=
  (randRun hw len soft s).finish

/-- The pseudocode of PRBS_GEN (46_interleave_randomize_prbs.md R237). -/
def prbsGenRun (P : Params) (len : BitVec 16) (s : State) : Run :=
  if len.toNat > 8 * obufSize then s.raise (.invalidInput .badLength)
  else if s.argHigh 0 9 ≠ 0 then s.raise (.invalidInput .fieldRange)
  else
    let out := prbs P len.toNat (s.argField 0 9)
    ((s.obWrite 0 (pack out.1)).setRes 0 (out.2.setWidth 32)).ok

/-- PRBS_GEN (46_interleave_randomize_prbs.md R237). -/
def execPrbsGen (len : BitVec 16) (s : State) : Host.Outcome State Fault Refusal := (prbsGenRun hw len s).finish

/-- The pseudocode of BER_CNT (46_interleave_randomize_prbs.md R238). -/
def berCntRun (len : BitVec 16) (s : State) : Run :=
  let n := len.toNat
  if n > 4096 then s.raise (.invalidInput .badLength)
  else
    ((s.setResNat 0 (bitErrors n (bits (s.ibytes 0 512)) (bits (s.ibytes 512 1024)))).setResNat 1 n).ok

/-- BER_CNT (46_interleave_randomize_prbs.md R238). -/
def execBerCnt (len : BitVec 16) (s : State) : Host.Outcome State Fault Refusal := (berCntRun len s).finish

end Sys2Proof.Machine
end

