-- ==== Sys2Proof/Machine/Golay.lean ====
section
/-! DEFINITION. 44_golay.md: the Golay(24,12) codec, the LICH unit codec, and their commands. -/

namespace Sys2Proof.Machine

/-- `par(d)` (44_golay.md R180): the XOR of GOLAY_PARITY[i] over the set bits i of d. -/
def golayPar (P : Params) (d : BitVec 12) : BitVec 12 :=
  (List.range 12).foldl (fun p i => if d.getLsbD i then p ^^^ P.golayParity.getD i 0 else p) 0

/-- `golay(d)` (44_golay.md R180): data in bits 23:12, parity in bits 11:0. -/
def golay (P : Params) (d : BitVec 12) : BitVec 24 := d ++ golayPar P d

/-- What a Golay decoder finds: data, metric or number of corrected bits, and the codeword. -/
structure GolayResult where
  data : BitVec 12
  metric : Nat
  code : BitVec 24
  deriving DecidableEq, Repr

/-- `golay_hard(r)` (44_golay.md R182): the codeword within Hamming distance 3 of r, if there is one. -/
def golayHard (P : Params) (r : BitVec 24) : Option GolayResult :=
  ((List.range 4096).find? fun d => hamming (golay P (BitVec.ofNat 12 d)) r ≤ 3).map fun d =>
    let c := golay P (BitVec.ofNat 12 d)
    { data := BitVec.ofNat 12 d, metric := hamming c r, code := c }

/-- `metric(c)` (44_golay.md R183): the summed distance of 24 soft bytes from a codeword, S[j] being the soft value of
codeword bit 23-j (R181). -/
def golayMetric (S : Bytes) (c : BitVec 24) : Nat :=
  ((List.range 24).map fun j => dist (S.getD j 0) (c.getLsbD (23 - j))).sum

/-- The candidate for the data word d, measured against S. -/
def golayCandidate (P : Params) (S : Bytes) (d : Nat) : GolayResult :=
  let c := golay P (BitVec.ofNat 12 d)
  { data := BitVec.ofNat 12 d, metric := golayMetric S c, code := c }

/-- `golay_soft(S)` (44_golay.md R183): the codeword of least metric over all 4096, the lowest one among equal metrics.
The data word is the codeword's high half, so rising d is rising codeword (log 12). -/
def golaySoft (P : Params) (S : Bytes) : GolayResult :=
  (List.range 4095).foldl
    (fun best k =>
      let r := golayCandidate P S (k + 1)
      if r.metric < best.metric then r else best)
    (golayCandidate P S 0)

/-- The hard-sliced word of 24 soft bytes, `Σ_k slice(S[k]) << (23-k)` (44_golay.md R185, R188). -/
def slicedWord (P : Params) (S : Bytes) : BitVec 24 :=
  BitVec.ofNat 24 (bitsToNat ((List.range 24).map fun k => hardSlice P (S.getD k 0)))

/-- A codeword in wire order, MSB-first (44_golay.md R181). -/
def wireBits {w : Nat} (c : BitVec w) : Bits := (List.range w).map fun j => c.getLsbD (w - 1 - j)

/-- Word j of a LICH unit: `u[47-12j : 36-12j]` (44_golay.md R184). -/
def unitWord (u : BitVec 48) (j : Nat) : BitVec 12 := u.extractLsb' (36 - 12 * j) 12

/-- `lich_enc(u)` (44_golay.md R184): four codewords, 96 bits. -/
def lichEncode (P : Params) (u : BitVec 48) : Bits :=
  (List.range 4).flatMap fun j => wireBits (golay P (unitWord u j))

/-- `ctr_of(u)` (48_stream_packet_ip.md R281). -/
def ctrOf (P : Params) (u : BitVec 48) : BitVec 3 :=
  match P.lichCtrPos with
  | .ctrPrefix => u.extractLsb' 45 3
  | .ctrSuffix => u.extractLsb' 5 3

/-- What `lich_sdec` finds (44_golay.md R185). -/
structure LichDecoded where
  unit : BitVec 48
  ctr : BitVec 3
  metric : Nat
  bad : Bool
  dmax : Nat
  deriving DecidableEq, Repr

/-- `lich_sdec(S)` (44_golay.md R185). -/
def lichSoftDecode (P : Params) (S : Bytes) : LichDecoded :=
  let word := fun j => slice S (24 * j) (24 * j + 24)
  let r := fun j => golaySoft P (word j)
  let h := fun j => hamming (slicedWord P (word j)) (r j).code
  let u : BitVec 48 := (r 0).data ++ ((r 1).data ++ ((r 2).data ++ (r 3).data))
  let dmax := max (h 0) (max (h 1) (max (h 2) (h 3)))
  let ctr := ctrOf P u
  { unit := u
    ctr := ctr
    metric := (r 0).metric + (r 1).metric + (r 2).metric + (r 3).metric
    bad := dmax > P.lichBadDist || ctr.toNat > 5
    dmax := dmax }

/-- The pseudocode of GOLAY_ENC (44_golay.md R186). -/
def golayEncRun (P : Params) (s : State) : Run :=
  if s.argHigh 0 12 ≠ 0 then s.raise (.invalidInput .fieldRange)
  else (s.setRes 0 ((golay P (s.argField 0 12)).setWidth 32)).ok

/-- GOLAY_ENC (44_golay.md R186). -/
def execGolayEnc (s : State) : Host.Outcome State Fault Refusal := (golayEncRun hw s).finish

/-- The pseudocode of GOLAY_DEC (44_golay.md R187). -/
def golayDecRun (P : Params) (s : State) : Run :=
  if s.argHigh 0 24 ≠ 0 then s.raise (.invalidInput .fieldRange)
  else
    match golayHard P (s.argField 0 24) with
    | some r => (((s.setRes 0 (r.data.setWidth 32)).setResNat 1 r.metric).setRes 2 (r.code.setWidth 32)).ok
    | none => s.raise .decodeFailure

/-- GOLAY_DEC (44_golay.md R187). -/
def execGolayDec (s : State) : Host.Outcome State Fault Refusal := (golayDecRun hw s).finish

/-- The pseudocode of GOLAY_SDEC (44_golay.md R188). -/
def golaySdecRun (P : Params) (s : State) : Run :=
  let S := s.ibytes 0 24
  let r := golaySoft P S
  ((((s.setRes 0 (r.data.setWidth 32)).setResNat 1 r.metric).setRes 2 (r.code.setWidth 32)).setResNat 3
    (hamming (slicedWord P S) r.code)).ok

/-- GOLAY_SDEC (44_golay.md R188). -/
def execGolaySdec (s : State) : Host.Outcome State Fault Refusal := (golaySdecRun hw s).finish

/-- The pseudocode of LICH_ENC (44_golay.md R189). -/
def lichEncRun (P : Params) (s : State) : Run :=
  (s.obWrite 0 (pack (lichEncode P (BitVec.ofNat 48 (beNat (s.ibytes 0 6)))))).ok

/-- LICH_ENC (44_golay.md R189). -/
def execLichEnc (s : State) : Host.Outcome State Fault Refusal := (lichEncRun hw s).finish

/-- The pseudocode of LICH_SDEC (44_golay.md R190): a bad chunk is reported, not raised. -/
def lichSdecRun (P : Params) (s : State) : Run :=
  let d := lichSoftDecode P (s.ibytes 0 96)
  (((((s.obWrite 0 (beBytes 6 d.unit.toNat)).setRes 0 (d.ctr.setWidth 32)).setResNat 1 d.metric).setResNat 2
    d.bad.toNat).setResNat 3 d.dmax).ok

/-- LICH_SDEC (44_golay.md R190). -/
def execLichSdec (s : State) : Host.Outcome State Fault Refusal := (lichSdecRun hw s).finish

end Sys2Proof.Machine
end

