-- ==== Sys2Proof/Machine/TypeField.lean ====
section
/-! DEFINITION. 43_type.md: the TYPE field layouts, detection, the META tag, and the TYPE commands. -/

namespace Sys2Proof.Machine

/-- `detect(t)` (43_type.md R162): V2 when t[15:12] = 0, V3 otherwise. -/
def detect (t : BitVec 16) : TypeVersion := if t.extractLsb' 12 4 = 0 then .v2 else .v3

/-- The code of a layout (43_type.md R162): V2 is 0, V3 is 1. -/
def TypeVersion.code : TypeVersion → Nat
  | .v2 => 0
  | .v3 => 1

/-- The META tags (43_type.md R169). -/
inductive MetaTag where
  | none
  | gnss
  | extCall
  | text
  | aesIv
  | nonce
  | unknown
  deriving DecidableEq, Repr

/-- The code of a META tag (43_type.md R169). -/
def MetaTag.code : MetaTag → Nat
  | .none => 0
  | .gnss => 1
  | .extCall => 2
  | .text => 3
  | .aesIv => 4
  | .nonce => 5
  | .unknown => 15

/-- `metatag(t)` (43_type.md R169): by the META field under v3, by EncryptionType and EncryptionSubType under v2. -/
def metatag (t : BitVec 16) : MetaTag :=
  match detect t with
  | .v3 =>
    match (t.extractLsb' 4 4).toNat with
    | 0 => .none
    | 1 => .gnss
    | 2 => .extCall
    | 3 => .text
    | 4 => .aesIv
    | _ => .unknown
  | .v2 =>
    match (t.extractLsb' 3 2).toNat with
    | 0 =>
      match (t.extractLsb' 5 2).toNat with
      | 0 => .text
      | 1 => .gnss
      | 2 => .extCall
      | _ => .unknown
    | 1 => .nonce
    | 2 => .nonce
    | _ => .unknown

/-- `t[lo+w-1:lo]` of a TYPE value, as a RES register shows it. -/
def typeBits (t : BitVec 16) (lo w : Nat) : Word := (t.extractLsb' lo w).setWidth 32

/-- The pseudocode of TYPE_BV2 (43_type.md R160, R164). -/
def typeBv2Run (s : State) : Run :=
  let sp := s.argReg 0; let dt := s.argReg 1; let et := s.argReg 2; let es := s.argReg 3; let can := s.argReg 4
  if sp.toNat > 1 ∨ dt.toNat > 3 ∨ et.toNat > 3 ∨ es.toNat > 3 ∨ can.toNat > 15 then
    s.raise (.invalidInput .fieldRange)
  else (s.setRes 0 (sp ||| dt <<< 1 ||| et <<< 3 ||| es <<< 5 ||| can <<< 7)).ok

/-- TYPE_BV2 (43_type.md R164). -/
def execTypeBv2 (s : State) : Host.Outcome State Fault Refusal := (typeBv2Run s).finish

/-- The pseudocode of TYPE_PV2 (43_type.md R165). -/
def typePv2Run (s : State) : Run :=
  if s.argHigh 0 16 ≠ 0 then s.raise (.invalidInput .fieldRange)
  else
    let t := s.argField 0 16
    (((((((s.setRes 0 (typeBits t 0 1)).setRes 1 (typeBits t 1 2)).setRes 2 (typeBits t 3 2)).setRes 3
      (typeBits t 5 2)).setRes 4 (typeBits t 7 4)).setRes 5 (typeBits t 11 5)).setResNat 6 (detect t).code).ok

/-- TYPE_PV2 (43_type.md R165). -/
def execTypePv2 (s : State) : Host.Outcome State Fault Refusal := (typePv2Run s).finish

/-- The pseudocode of TYPE_BV3 (43_type.md R161, R166). -/
def typeBv3Run (s : State) : Run :=
  let pay := s.argReg 0; let enc := s.argReg 1; let sig := s.argReg 2; let mt := s.argReg 3; let can := s.argReg 4
  if pay.toNat > 15 ∨ enc.toNat > 7 ∨ sig.toNat > 1 ∨ mt.toNat > 15 ∨ can.toNat > 15 then
    s.raise (.invalidInput .fieldRange)
  else (s.setRes 0 (pay <<< 12 ||| enc <<< 9 ||| sig <<< 8 ||| mt <<< 4 ||| can)).ok

/-- TYPE_BV3 (43_type.md R166). -/
def execTypeBv3 (s : State) : Host.Outcome State Fault Refusal := (typeBv3Run s).finish

/-- The pseudocode of TYPE_PV3 (43_type.md R167): RES5 is not written. -/
def typePv3Run (s : State) : Run :=
  if s.argHigh 0 16 ≠ 0 then s.raise (.invalidInput .fieldRange)
  else
    let t := s.argField 0 16
    ((((((s.setRes 0 (typeBits t 12 4)).setRes 1 (typeBits t 9 3)).setRes 2 (typeBits t 8 1)).setRes 3
      (typeBits t 4 4)).setRes 4 (typeBits t 0 4)).setResNat 6 (detect t).code).ok

/-- TYPE_PV3 (43_type.md R167). -/
def execTypePv3 (s : State) : Host.Outcome State Fault Refusal := (typePv3Run s).finish

/-- The pseudocode of TYPE_DET (43_type.md R168). -/
def typeDetRun (s : State) : Run :=
  if s.argHigh 0 16 ≠ 0 then s.raise (.invalidInput .fieldRange)
  else
    let t := s.argField 0 16
    ((s.setResNat 0 (detect t).code).setResNat 1 (metatag t).code).ok

/-- TYPE_DET (43_type.md R168). -/
def execTypeDet (s : State) : Host.Outcome State Fault Refusal := (typeDetRun s).finish

end Sys2Proof.Machine
end

