-- ==== Sys2Proof/Machine/Lsf.lean ====
section
/-! DEFINITION. 47_lsf_meta.md: the LSF, its check, and the META commands but for text (Machine/TextMeta.lean). -/

namespace Sys2Proof.Machine

/-- The TYPE field of an LSF, `BE(L[12..14))` (47_lsf_meta.md R250). -/
def lsfType (L : Bytes) : BitVec 16 := BitVec.ofNat 16 (beNat (slice L 12 14))

/-- The layout is enabled in CTRL (10_state.md R25). -/
def State.versionEnabled (s : State) : TypeVersion → Bool
  | .v2 => s.v2En
  | .v3 => s.v3En

/-- The version part of `lsf_check` (47_lsf_meta.md R251): the error of a TYPE whose layout is disabled in CTRL. -/
def State.versionCheck (s : State) (t : BitVec 16) : Option Err :=
  if s.versionEnabled (detect t) then none else some (.unsupportedVersion (detect t))

/-- `lsf_check(L)` (47_lsf_meta.md R251): the CRC first, then the version. -/
def State.lsfCheck (s : State) (L : Bytes) : Option Err :=
  if (crc16 (slice L 0 28)).toNat ≠ beNat (slice L 28 30) then some .crcMismatch else s.versionCheck (lsfType L)

/-- The pseudocode of LSF_BUILD (47_lsf_meta.md R259). -/
def lsfBuildRun (s : State) : Run :=
  let c := crc16 (s.ibytes 0 28)
  (((s.obWrite 0 (s.ibytes 0 28)).obWrite 28 (beBytes 2 c.toNat)).setRes 0 (c.setWidth 32)).ok

/-- LSF_BUILD (47_lsf_meta.md R259). -/
def execLsfBuild (s : State) : Host.Outcome State Fault Refusal := (lsfBuildRun s).finish

/-- The pseudocode of LSF_PARSE (47_lsf_meta.md R260): all eight RES registers are written before the check. -/
def lsfParseRun (s : State) : Run :=
  let L := s.ibytes 0 30
  let t := lsfType L
  ((((((s.setRes 0 (t.setWidth 32)).setResNat 1 (detect t).code).setResNat 2 (metatag t).code).setRes 3
    ((crc16 (slice L 0 28)).setWidth 32)).setResAddr 4 5 (beNat (slice L 0 6))).setResAddr 6 7
    (beNat (slice L 6 12))).raiseIf (s.lsfCheck L)

/-- LSF_PARSE (47_lsf_meta.md R260). -/
def execLsfParse (s : State) : Host.Outcome State Fault Refusal := (lsfParseRun s).finish

/-- `alt <- sext_32(ARG[4]) + 1500` (47_lsf_meta.md R261). -/
def State.altitudeRaw (s : State) : Int := (s.argReg 4).toInt + 1500

/-- The position operands are in range (47_lsf_meta.md R261). -/
def State.positionOk (s : State) : Bool :=
  let lat := (s.argReg 2).toInt
  let lon := (s.argReg 3).toInt
  (s.argReg 0).toNat ≤ 255 && (s.argReg 1).toNat ≤ 255
    && -(2 ^ 23) ≤ lat && lat < 2 ^ 23 && -(2 ^ 23) ≤ lon && lon < 2 ^ 23
    && 0 ≤ s.altitudeRaw && s.altitudeRaw ≤ 65535 && (s.argReg 5).toNat ≤ 359

/-- The 14 bytes of the position META (47_lsf_meta.md R252, R261): the signed fields modulo 2^24, the speed capped at
255, the reserved byte 0. -/
def State.positionMeta (s : State) : Bytes :=
  beBytes 1 (s.argReg 0).toNat ++ beBytes 1 (s.argReg 1).toNat
    ++ beBytes 3 ((s.argReg 2).toInt % 2 ^ 24).toNat ++ beBytes 3 ((s.argReg 3).toInt % 2 ^ 24).toNat
    ++ beBytes 2 s.altitudeRaw.toNat ++ beBytes 2 (s.argReg 5).toNat
    ++ beBytes 1 (min (s.argReg 6).toNat 255) ++ [0]

/-- The pseudocode of META_POS_PACK (47_lsf_meta.md R261). -/
def metaPosPackRun (s : State) : Run :=
  if s.positionOk then (s.obWrite 0 s.positionMeta).ok else s.raise (.invalidInput .fieldRange)

/-- META_POS_PACK (47_lsf_meta.md R261). -/
def execMetaPosPack (s : State) : Host.Outcome State Fault Refusal := (metaPosPackRun s).finish

/-- `sext_24(v) mod 2^32`: a 24-bit signed field as a RES register shows it (47_lsf_meta.md R262). -/
def signed24 (v : Nat) : Word := (BitVec.ofNat 24 v).signExtend 32

/-- The pseudocode of META_POS_UNPACK (47_lsf_meta.md R262). -/
def metaPosUnpackRun (s : State) : Run :=
  let M := s.ibytes 0 14
  ((((((((s.setResNat 0 (beNat (slice M 0 1))).setResNat 1 (beNat (slice M 1 2))).setRes 2
    (signed24 (beNat (slice M 2 5)))).setRes 3 (signed24 (beNat (slice M 5 8)))).setRes 4
    (BitVec.ofInt 32 ((beNat (slice M 8 10) : Int) - 1500))).setResNat 5 (beNat (slice M 10 12))).setResNat 6
    (beNat (slice M 12 13))).setResNat 7 (beNat (slice M 13 14))).ok

/-- META_POS_UNPACK (47_lsf_meta.md R262). -/
def execMetaPosUnpack (s : State) : Host.Outcome State Fault Refusal := (metaPosUnpackRun s).finish

/-- The pseudocode of META_ECS_PACK (47_lsf_meta.md R253, R263). -/
def metaEcsPackRun (s : State) : Run := ((s.obWrite 0 (s.ibytes 0 12)).obWrite 12 [0, 0]).ok

/-- META_ECS_PACK (47_lsf_meta.md R263). -/
def execMetaEcsPack (s : State) : Host.Outcome State Fault Refusal := (metaEcsPackRun s).finish

/-- The pseudocode of META_ECS_UNPACK (47_lsf_meta.md R264). -/
def metaEcsUnpackRun (s : State) : Run :=
  ((((s.obWrite 0 (s.ibytes 0 12)).setResNat 0 (beNat (s.ibytes 12 14))).setResAddr 1 2
    (beNat (s.ibytes 0 6))).setResAddr 3 4 (beNat (s.ibytes 6 12))).ok

/-- META_ECS_UNPACK (47_lsf_meta.md R264). -/
def execMetaEcsUnpack (s : State) : Host.Outcome State Fault Refusal := (metaEcsUnpackRun s).finish

/-- The pseudocode of AESIV_CTR (47_lsf_meta.md R255, R265). -/
def aesivCtrRun (s : State) : Run :=
  if s.argHigh 0 16 ≠ 0 then s.raise (.invalidInput .fieldRange)
  else ((s.obWrite 0 (s.ibytes 0 14)).obWrite 14 (beBytes 2 (s.argField 0 16).toNat)).ok

/-- AESIV_CTR (47_lsf_meta.md R265). -/
def execAesivCtr (s : State) : Host.Outcome State Fault Refusal := (aesivCtrRun s).finish

end Sys2Proof.Machine
end

