-- ==== Sys2Proof/Machine/Ip.lean ====
section
/-! DEFINITION. 48_stream_packet_ip.md, section 5: the IP frame, IP_BUILD and IP_PARSE. -/

namespace Sys2Proof.Machine

/-- The first 52 bytes of an IP frame: magic, stream id, LSF without CRC, stream payload (48_stream_packet_ip.md
R297, R298). -/
def ipHead (sid : BitVec 16) (lsf payload : Bytes) : Bytes := ipMagic ++ beBytes 2 sid.toNat ++ lsf ++ payload

/-- The pseudocode of IP_BUILD (48_stream_packet_ip.md R298). -/
def ipBuildRun (s : State) : Run :=
  if s.argHigh 0 16 ≠ 0 then s.raise (.invalidInput .fieldRange)
  else
    let F := ipHead (s.argField 0 16) (s.ibytes 0 28) (s.ibytes 28 46)
    let c := crc16 (slice F 4 52)
    (((s.obWrite 0 F).obWrite 52 (beBytes 2 c.toNat)).setRes 0 (c.setWidth 32)).ok

/-- IP_BUILD (48_stream_packet_ip.md R298). -/
def execIpBuild (s : State) : Host.Outcome State Fault Refusal := (ipBuildRun s).finish

/-- The check of an IP frame after its outputs are written (48_stream_packet_ip.md R299): the frame CRC, then
`lsf_check` of the embedded LSF with its fresh CRC, the 30 bytes just written to OB[0..30) (log 14). -/
def State.ipCheck (s : State) (F : Bytes) (L : Bytes) : Option Err :=
  if (crc16 (slice F 4 52)).toNat ≠ beNat (slice F 52 54) then some .crcMismatch else s.lsfCheck L

/-- The pseudocode of IP_PARSE (48_stream_packet_ip.md R299). -/
def ipParseRun (s : State) : Run :=
  let F := s.ibytes 0 54
  if slice F 0 4 ≠ ipMagic then s.raise .badMagic
  else
    let l := slice F 6 34
    let t := lsfType l
    let c := crc16 l
    (((((((((s.obWrite 0 l).obWrite 28 (beBytes 2 c.toNat)).obWrite 30 (slice F 34 52)).setResNat 0
      (beNat (slice F 4 6))).setRes 1 (t.setWidth 32)).setResNat 2 (detect t).code).setRes 3 (c.setWidth 32)).setResNat 4
      (beNat (slice F 34 36))).setRes 5 ((crc16 (slice F 4 52)).setWidth 32)).raiseIf
      (s.ipCheck F (l ++ beBytes 2 c.toNat))

/-- IP_PARSE (48_stream_packet_ip.md R299). -/
def execIpParse (s : State) : Host.Outcome State Fault Refusal := (ipParseRun s).finish

end Sys2Proof.Machine
end

