-- ==== Sys2Proof/Machine/Lich.lean ====
section
/-! DEFINITION. 48_stream_packet_ip.md, sections 1 and 2: LICH units, the LICH collector and the LICH commands. -/

namespace Sys2Proof.Machine

/-- `chunk(L, k)` (48_stream_packet_ip.md R281). -/
def lsfChunk (L : Bytes) (k : Nat) : BitVec 40 := BitVec.ofNat 40 (beNat (slice L (5 * k) (5 * k + 5)))

/-- A LICH unit from its counter and chunk, the spare bits 0 (48_stream_packet_ip.md R281). -/
def lichUnit (P : Params) (k : BitVec 3) (D : BitVec 40) : BitVec 48 :=
  match P.lichCtrPos with
  | .ctrPrefix => k ++ (D ++ 0#5)
  | .ctrSuffix => D ++ (k ++ 0#5)

/-- `chunk_of(u)` (48_stream_packet_ip.md R281). -/
def chunkOf (P : Params) (u : BitVec 48) : BitVec 40 :=
  match P.lichCtrPos with
  | .ctrPrefix => u.extractLsb' 5 40
  | .ctrSuffix => u.extractLsb' 8 40

/-- What `lich_accept` answers (48_stream_packet_ip.md R282), and 4 for a chunk dropped as bad (R288). -/
inductive LichAction where
  | new
  | identical
  | replaced
  | rejected
  | dropped
  deriving DecidableEq, Repr

/-- The code of a LICH action (48_stream_packet_ip.md R282, R288). -/
def LichAction.code : LichAction → Nat
  | .new => 0
  | .identical => 1
  | .replaced => 2
  | .rejected => 3
  | .dropped => 4

/-- The empty collector keyed to a stream id (48_stream_packet_ip.md R282, R285). -/
def LichCollector.keyed (sid : BitVec 16) : LichCollector := { LichCollector.empty with sid := sid, sidValid := true }

/-- The first statement of `lich_accept`: a new stream id empties the collector (48_stream_packet_ip.md R282). -/
def LichCollector.forStream (l : LichCollector) (sid : BitVec 16) : LichCollector :=
  if l.sidValid = false ∨ sid ≠ l.sid then LichCollector.keyed sid else l

/-- `SLOT[k] <- (1, D, m)`. -/
def LichCollector.put (l : LichCollector) (k : Fin 6) (D : BitVec 40) (m : Word) : LichCollector :=
  { l with slots := l.slots.set k { valid := true, data := D, metric := m } }

/-- `lich_accept(D, k, m, sid)` (48_stream_packet_ip.md R282). -/
def lichAccept (l0 : LichCollector) (D : BitVec 40) (k : Fin 6) (m : Word) (sid : BitVec 16) :
    LichCollector × LichAction :=
  let l := l0.forStream sid
  let slot := l.slots[k]
  if slot.valid = false then (l.put k D m, .new)
  else if slot.data = D then (l, .identical)
  else if m < slot.metric then (l.put k D m, .replaced)
  else (l, .rejected)

/-- Some slot is empty (48_stream_packet_ip.md R283). -/
def LichCollector.incomplete (l : LichCollector) : Bool := l.slots.toList.any (fun slot => !slot.valid)

/-- The 30 bytes of the six chunks (48_stream_packet_ip.md R283). -/
def LichCollector.assembled (l : LichCollector) : Bytes :=
  l.slots.toList.flatMap fun slot => beBytes 5 slot.data.toNat

/-- The error of a rejected chunk (48_stream_packet_ip.md R286, R288). -/
def rejectedError (a : LichAction) : Option Err :=
  if a = .rejected then some (.reassembly .dupMismatch) else none

/-- `RES[n] <- Σ_k SLOT[k].valid << k` (48_stream_packet_ip.md R286, R287, R288). -/
def State.setResBitmap (s : State) (n : Fin 8) : State := s.setRes n (s.lich.bitmap.setWidth 32)

/-- The pseudocode of LICH_CHUNK (48_stream_packet_ip.md R284). -/
def lichChunkRun (P : Params) (s : State) : Run :=
  let k := (s.argReg 0).toNat
  if k > 5 then s.raise (.invalidInput .fieldRange)
  else
    let u := lichUnit P (BitVec.ofNat 3 k) (lsfChunk (s.ibytes 0 30) k)
    ((s.obWrite 0 (beBytes 6 u.toNat)).obWrite 6 (pack (lichEncode P u))).ok

/-- LICH_CHUNK (48_stream_packet_ip.md R284). -/
def execLichChunk (s : State) : Host.Outcome State Fault Refusal := (lichChunkRun hw s).finish

/-- The pseudocode of LICH_RESET (48_stream_packet_ip.md R285). -/
def lichResetRun (s : State) : Run :=
  if s.argHigh 0 16 ≠ 0 then s.raise (.invalidInput .fieldRange)
  else (s.setLich (LichCollector.keyed (s.argField 0 16))).ok

/-- LICH_RESET (48_stream_packet_ip.md R285). -/
def execLichReset (s : State) : Host.Outcome State Fault Refusal := (lichResetRun s).finish

/-- The pseudocode of LICH_ACCEPT (48_stream_packet_ip.md R286). -/
def lichAcceptRun (s : State) : Run :=
  let k := (s.argReg 0).toNat
  if k > 5 ∨ s.argHigh 2 16 ≠ 0 then s.raise (.invalidInput .fieldRange)
  else
    let r := lichAccept s.lich (BitVec.ofNat 40 (beNat (s.ibytes 0 5))) (Fin.ofNat 6 k) (s.argReg 1) (s.argField 2 16)
    (((s.setLich r.1).setResBitmap 0).setResNat 1 r.2.code).raiseIf (rejectedError r.2)

/-- LICH_ACCEPT (48_stream_packet_ip.md R286). -/
def execLichAccept (s : State) : Host.Outcome State Fault Refusal := (lichAcceptRun s).finish

/-- The pseudocode of LICH_ASSEMBLE (48_stream_packet_ip.md R287). -/
def lichAssembleRun (s : State) : Run :=
  let s1 := s.setResBitmap 0
  if s.lich.incomplete then s1.raise (.reassembly .missing)
  else
    let L := s.lich.assembled
    let t := lsfType L
    ((((s1.obWrite 0 L).setRes 1 (t.setWidth 32)).setResNat 2 (detect t).code).setRes 3
      ((crc16 (slice L 0 28)).setWidth 32)).raiseIf (s.lsfCheck L)

/-- LICH_ASSEMBLE (48_stream_packet_ip.md R287). -/
def execLichAssemble (s : State) : Host.Outcome State Fault Refusal := (lichAssembleRun s).finish

/-- Offer a soft-decoded LICH unit to the collector, unless it is bad (48_stream_packet_ip.md R288,
49_pipeline_bert.md R326): the collector after it, and the action. A unit that is not bad has a counter of at most 5
(44_golay.md R185). -/
def offerLich (P : Params) (l : LichCollector) (d : LichDecoded) (sid : BitVec 16) : LichCollector × LichAction :=
  if d.bad then (l, .dropped)
  else lichAccept l (chunkOf P d.unit) (Fin.ofNat 6 d.ctr.toNat) (BitVec.ofNat 32 d.metric) sid

/-- The pseudocode of LICH_RX (48_stream_packet_ip.md R288). -/
def lichRxRun (P : Params) (s : State) : Run :=
  if s.argHigh 0 16 ≠ 0 then s.raise (.invalidInput .fieldRange)
  else
    let d := lichSoftDecode P (s.ibytes 0 96)
    let r := offerLich P s.lich d (s.argField 0 16)
    ((((((s.obWrite 0 (beBytes 6 d.unit.toNat)).setResNat 2 d.metric).setRes 3 (d.ctr.setWidth 32)).setLich
      r.1).setResBitmap 0).setResNat 1 r.2.code).raiseIf (rejectedError r.2)

/-- LICH_RX (48_stream_packet_ip.md R288). -/
def execLichRx (s : State) : Host.Outcome State Fault Refusal := (lichRxRun hw s).finish

end Sys2Proof.Machine
end

