-- ==== Sys2Proof/Machine/Packet.lean ====
section
/-! DEFINITION. 48_stream_packet_ip.md, sections 3 and 4: packets, the packet reassembler and the packet commands. -/

namespace Sys2Proof.Machine

/-- The metadata byte of a chunk: EOF in bit 7, the counter or byte count in bits 6:2 (48_stream_packet_ip.md R290). -/
def chunkMark (eof : Bool) (c : Nat) : Byte := BitVec.ofBool eof ++ (BitVec.ofNat 5 c ++ 0#2)

/-- The number of chunks of a packet of `L` bytes, ⌈L/25⌉ (48_stream_packet_ip.md R290). -/
def chunkCount (L : Nat) : Nat := (L + 24) / 25

/-- Chunk k of a packet in n chunks: 25 data bytes, zero-padded on the last chunk, and the metadata byte
(48_stream_packet_ip.md R290). -/
def packetChunk (Q : Bytes) (n k : Nat) : Bytes :=
  let data := slice Q (25 * k) (25 * k + 25)
  if k + 1 < n then data ++ [chunkMark false k]
  else data ++ List.replicate (25 - data.length) 0 ++ [chunkMark true data.length]

/-- `pkt_chunks(P)` (48_stream_packet_ip.md R290). -/
def packetChunks (Q : Bytes) : List Bytes := (List.range (chunkCount Q.length)).map (packetChunk Q (chunkCount Q.length))

/-- What `pkt_accept` answers without an error (48_stream_packet_ip.md R291). -/
inductive PacketAction where
  | stored
  | duplicate
  | complete (packet : Bytes)
  | restarted
  deriving DecidableEq, Repr

/-- `drop()`: ACTIVE <- 0; EXP <- 0 (48_stream_packet_ip.md R291). -/
def PacketReassembler.drop (p : PacketReassembler) : PacketReassembler := { p with active := false, exp := 0 }

/-- Store the data of a non-last chunk at position c and expect the next one (48_stream_packet_ip.md R291). -/
def PacketReassembler.store (p : PacketReassembler) (B : Bytes) (c : Nat) : PacketReassembler :=
  { p with pbuf := p.pbuf.writeBytes (25 * c) (slice B 0 25), exp := BitVec.ofNat 6 (c + 1), active := true }

/-- `pkt_accept(B)` for a chunk that is not the last (48_stream_packet_ip.md R291). -/
def acceptMiddleChunk (p : PacketReassembler) (B : Bytes) (c : Nat) : PacketReassembler × Except Err PacketAction :=
  if p.active ∧ c + 1 = p.exp.toNat then
    if slice B 0 25 = p.bytes (25 * c) (25 * c + 25) then (p, .ok .duplicate)
    else (p.drop, .error (.reassembly .dupMismatch))
  else if c = p.exp.toNat then (p.store B c, .ok .stored)
  else if c = 0 then (p.drop.store B 0, .ok .restarted)
  else if c > p.exp.toNat then (p.drop, .error (.reassembly .gap))
  else (p.drop, .error (.reassembly .outOfOrder))

/-- The CRC of a whole packet verifies (48_stream_packet_ip.md R289, R291, 42_crc.md R153). -/
def packetCrcOk (Q : Bytes) : Bool :=
  (crc16 (slice Q 0 (Q.length - 2))).toNat == beNat (slice Q (Q.length - 2) Q.length)

/-- `pkt_accept(B)` for the last chunk, whose byte count is c (48_stream_packet_ip.md R291): the reassembler is dropped
whatever comes of it. -/
def acceptLastChunk (p : PacketReassembler) (B : Bytes) (c : Nat) : PacketReassembler × Except Err PacketAction :=
  if c = 0 ∨ c > 25 then (p.drop, .error (.reassembly .badCount))
  else
    let Q := p.bytes 0 (25 * p.exp.toNat) ++ slice B 0 c
    if Q.length < 3 then (p.drop, .error (.reassembly .short))
    else if packetCrcOk Q then (p.drop, .ok (.complete Q))
    else (p.drop, .error .crcMismatch)

/-- EOF of a chunk, `B[25][7]` (48_stream_packet_ip.md R290). -/
def chunkEof (B : Bytes) : Bool := (B.getD 25 0).getLsbD 7

/-- The counter or byte count of a chunk, `B[25][6:2]` (48_stream_packet_ip.md R290). -/
def chunkCounter (B : Bytes) : BitVec 5 := (B.getD 25 0).extractLsb' 2 5

/-- `pkt_accept(B)` (48_stream_packet_ip.md R291). -/
def packetAccept (p : PacketReassembler) (B : Bytes) : PacketReassembler × Except Err PacketAction :=
  if chunkEof B then acceptLastChunk p B (chunkCounter B).toNat else acceptMiddleChunk p B (chunkCounter B).toNat

/-- The pseudocode of PKT_BUILD (48_stream_packet_ip.md R292). -/
def pktBuildRun (len : BitVec 16) (s : State) : Run :=
  let p := len.toNat
  if p > 822 then s.raise (.invalidInput .tooLong)
  else if s.argHigh 0 8 ≠ 0 then s.raise (.invalidInput .fieldRange)
  else
    let Q := s.argField 0 8 :: s.ibytes 0 p
    let c := crc16 Q
    ((((s.obWrite 0 (Q ++ beBytes 2 c.toNat)).setResNat 0 (p + 3)).setResNat 1 (chunkCount (p + 3))).setRes 2
      (c.setWidth 32)).ok

/-- PKT_BUILD (48_stream_packet_ip.md R292). -/
def execPktBuild (len : BitVec 16) (s : State) : Host.Outcome State Fault Refusal := (pktBuildRun len s).finish

/-- The pseudocode of PKT_CHUNK (48_stream_packet_ip.md R293). -/
def pktChunkRun (len : BitVec 16) (s : State) : Run :=
  let L := len.toNat
  if L = 0 then s.raise (.invalidInput .badLength)
  else if L > 825 then s.raise (.invalidInput .tooLong)
  else
    let ch := packetChunks (s.ibytes 0 L)
    ((s.obWrite 0 ch.flatten).setResNat 0 ch.length).ok

/-- PKT_CHUNK (48_stream_packet_ip.md R293). -/
def execPktChunk (len : BitVec 16) (s : State) : Host.Outcome State Fault Refusal := (pktChunkRun len s).finish

/-- The pseudocode of PKT_RESET (48_stream_packet_ip.md R294); the contents of PBUF become unspecified (93 U2; log 3). -/
def pktResetRun (s : State) : Run := (s.setPkt (PacketReassembler.idle (s.pkt.epoch + 1))).ok

/-- PKT_RESET (48_stream_packet_ip.md R294). -/
def execPktReset (s : State) : Host.Outcome State Fault Refusal := (pktResetRun s).finish

/-- What PKT_ACCEPT writes for an action (48_stream_packet_ip.md R295). -/
def State.writePacketAction (s : State) : PacketAction → State
  | .stored => s.setResNat 0 0
  | .duplicate => s.setResNat 0 1
  | .complete Q =>
    (((s.obWrite 0 Q).setResNat 0 2).setRes 1 ((Q.getD 0 0).setWidth 32)).setResNat 2 (Q.length - 3)
  | .restarted => s.setResNat 0 3

/-- The pseudocode of PKT_ACCEPT (48_stream_packet_ip.md R295). -/
def pktAcceptRun (s : State) : Run :=
  let r := packetAccept s.pkt (s.ibytes 0 26)
  let s1 := s.setPkt r.1
  match r.2 with
  | .error e => s1.raise e
  | .ok a => ((s1.writePacketAction a).setRes 3 (r.1.exp.setWidth 32)).ok

/-- PKT_ACCEPT (48_stream_packet_ip.md R295). -/
def execPktAccept (s : State) : Host.Outcome State Fault Refusal := (pktAcceptRun s).finish

/-- The pseudocode of PKT_FLUSH (48_stream_packet_ip.md R296). -/
def pktFlushRun (s : State) : Run :=
  if s.pkt.active then (s.setPkt s.pkt.drop).raise (.reassembly .missingEnd) else s.ok

/-- PKT_FLUSH (48_stream_packet_ip.md R296). -/
def execPktFlush (s : State) : Host.Outcome State Fault Refusal := (pktFlushRun s).finish

end Sys2Proof.Machine
end

