-- ==== Sys2Proof/Machine/Pipeline.lean ====
section
/-! DEFINITION. 49_pipeline_bert.md: the frame pipelines and the BERT commands. -/

namespace Sys2Proof.Machine

/-- `tx_frame(w, c)` (49_pipeline_bert.md R321): interleave, randomize, put the sync word before. -/
def txFrame (P : Params) (sync : BitVec 16) (c : Bits) : Bytes :=
  pack (bits (beBytes 2 sync.toNat) ++ randomizeHard P (interleave false c))

/-- `rx_front(S)` (49_pipeline_bert.md R322): drop the 16 sync positions, derandomize, deinterleave. -/
def rxFront (P : Params) (S : Bytes) : Bytes := interleave 0 (randomizeSoft P (slice S 16 384))

/-- The pseudocode of LSF_TX (49_pipeline_bert.md R323). -/
def lsfTxRun (P : Params) (s : State) : Run :=
  let c := crc16 (s.ibytes 0 28)
  let L := s.ibytes 0 28 ++ beBytes 2 c.toNat
  ((s.obWrite 0 (txFrame P syncLsf (puncture P.punctP1 (conv (bits L))))).setRes 0 (c.setWidth 32)).ok

/-- LSF_TX (49_pipeline_bert.md R323). -/
def execLsfTx (s : State) : Host.Outcome State Fault Refusal := (lsfTxRun hw s).finish

/-- The pseudocode of LSF_RX (49_pipeline_bert.md R324). -/
def lsfRxRun (P : Params) (s : State) : Run :=
  let r := viterbi P.punctP1 240 (rxFront P (s.ibytes 0 384))
  let L := pack r.1
  let t := lsfType L
  ((((((s.obWrite 0 L).setRes 0 (t.setWidth 32)).setResNat 1 (detect t).code).setResNat 2 (metatag t).code).setResNat 3
    r.2).setRes 4 ((crc16 (slice L 0 28)).setWidth 32)).raiseIf (s.lsfCheck L)

/-- LSF_RX (49_pipeline_bert.md R324). -/
def execLsfRx (s : State) : Host.Outcome State Fault Refusal := (lsfRxRun hw s).finish

/-- The pseudocode of STR_TX (49_pipeline_bert.md R325). -/
def strTxRun (P : Params) (s : State) : Run :=
  let a := lichEncode P (BitVec.ofNat 48 (beNat (s.ibytes 0 6)))
  let b := puncture P.punctP2 (conv (bits (s.ibytes 6 24)))
  (s.obWrite 0 (txFrame P syncStream (a ++ b))).ok

/-- STR_TX (49_pipeline_bert.md R325). -/
def execStrTx (s : State) : Host.Outcome State Fault Refusal := (strTxRun hw s).finish

/-- The results STR_RX writes whatever FEED is (49_pipeline_bert.md R326). -/
def State.writeStream (s : State) (d : LichDecoded) (payload : Bytes) (pm : Nat) : State :=
  (((((((s.obWrite 0 (beBytes 6 d.unit.toNat)).obWrite 6 payload).setResNat 0 (beNat (slice payload 0 2))).setResNat 1
    d.metric).setResNat 2 d.bad.toNat).setResNat 3 pm).setResNat 4 ((payload.getD 0 0).getLsbD 7).toNat).setRes 5
    (d.ctr.setWidth 32)

/-- The pseudocode of STR_RX (49_pipeline_bert.md R326): a rejected chunk is reported in RES6, not raised. -/
def strRxRun (P : Params) (s : State) : Run :=
  if s.argHigh 0 17 ≠ 0 then s.raise (.invalidInput .fieldRange)
  else
    let X := rxFront P (s.ibytes 0 384)
    let d := lichSoftDecode P (slice X 0 96)
    let r := viterbi P.punctP2 144 (slice X 96 368)
    let s1 := s.writeStream d (pack r.1) r.2
    if (s.argReg 0).getLsbD 16 then
      let f := offerLich P s.lich d (s.argField 0 16)
      ((s1.setLich f.1).setResNat 6 f.2.code).ok
    else s1.ok

/-- STR_RX (49_pipeline_bert.md R326). -/
def execStrRx (s : State) : Host.Outcome State Fault Refusal := (strRxRun hw s).finish

/-- The pseudocode of PKT_TX (49_pipeline_bert.md R327). -/
def pktTxRun (P : Params) (s : State) : Run :=
  let c := puncture P.punctP3 (conv ((bits (s.ibytes 0 26)).take 206))
  (s.obWrite 0 (txFrame P syncPacket c)).ok

/-- PKT_TX (49_pipeline_bert.md R327). -/
def execPktTx (s : State) : Host.Outcome State Fault Refusal := (pktTxRun hw s).finish

/-- The pseudocode of PKT_RX (49_pipeline_bert.md R328). -/
def pktRxRun (P : Params) (s : State) : Run :=
  let r := viterbi P.punctP3 206 (rxFront P (s.ibytes 0 384))
  let B := pack r.1
  ((((s.obWrite 0 B).setResNat 0 r.2).setResNat 1 ((B.getD 25 0).getLsbD 7).toNat).setRes 2
    (((B.getD 25 0).extractLsb' 2 5).setWidth 32)).ok

/-- PKT_RX (49_pipeline_bert.md R328). -/
def execPktRx (s : State) : Host.Outcome State Fault Refusal := (pktRxRun hw s).finish

/-- The coded bits of the 197-bit BERT payload fill a frame (49_pipeline_bert.md R329). -/
def bertFits (P : Params) : Bool := kept (bertMask P) 402 == frameBits

/-- The pseudocode of BERT_TX (49_pipeline_bert.md R330). -/
def bertTxRun (P : Params) (s : State) : Run :=
  if s.argHigh 0 9 ≠ 0 then s.raise (.invalidInput .fieldRange)
  else if !bertFits P then s.raise (.invalidInput .badLength)
  else
    let out := prbs P 197 (s.argField 0 9)
    ((s.obWrite 0 (txFrame P syncBert (puncture (bertMask P) (conv out.1)))).setRes 0 (out.2.setWidth 32)).ok

/-- BERT_TX (49_pipeline_bert.md R330). -/
def execBertTx (s : State) : Host.Outcome State Fault Refusal := (bertTxRun hw s).finish

/-- The pseudocode of BERT_RX (49_pipeline_bert.md R331). -/
def bertRxRun (P : Params) (s : State) : Run :=
  if s.argHigh 0 9 ≠ 0 then s.raise (.invalidInput .fieldRange)
  else if !bertFits P then s.raise (.invalidInput .badLength)
  else
    let r := viterbi (bertMask P) 197 (rxFront P (s.ibytes 0 384))
    let e := (prbs P 197 (s.argField 0 9)).1
    ((((s.obWrite 0 (pack r.1)).setResNat 0 (bitErrors 197 r.1 e)).setResNat 1 197).setResNat 2 r.2).ok

/-- BERT_RX (49_pipeline_bert.md R331). -/
def execBertRx (s : State) : Host.Outcome State Fault Refusal := (bertRxRun hw s).finish

end Sys2Proof.Machine
end

