-- ==== Sys2Proof/Machine/TextMeta.lean ====
section
/-! DEFINITION. 47_lsf_meta.md: text META blocks, the text collector, TEXT_PACK, TEXT_RESET and TEXT_ACCEPT. -/

namespace Sys2Proof.Machine

/-- The number of text blocks of a text of `L` bytes: max(1, ⌈L/13⌉) (47_lsf_meta.md R257). -/
def textBlockCount (L : Nat) : Nat := max 1 ((L + 12) / 13)

/-- Block p of a text of n blocks: the control byte, 13 text bytes, zeros to 14 bytes (47_lsf_meta.md R256, R257). -/
def textBlock (P : Params) (T : Bytes) (n p : Nat) : Bytes :=
  let part := slice T (13 * p) (13 * p + 13)
  BitVec.ofNat 8 (16 * n + (p + P.textIndexBase)) :: (part ++ List.replicate (13 - part.length) 0)

/-- `text_frag(T)` (47_lsf_meta.md R257). -/
def textFrag (P : Params) (T : Bytes) : List Bytes :=
  (List.range (textBlockCount T.length)).map (textBlock P T (textBlockCount T.length))

/-- What `text_accept` answers without an error (47_lsf_meta.md R258). -/
inductive TextAction where
  | stored
  | duplicate
  | complete (text : Bytes)
  | restarted
  deriving DecidableEq, Repr

/-- `ACTIVE <- 0; CNT <- 0; NEXT <- 0` (47_lsf_meta.md R258): TBUF keeps its bytes. -/
def TextCollector.cleared (c : TextCollector) : TextCollector := { c with active := false, cnt := 0, next := 0 }

/-- `store(B, p)` (47_lsf_meta.md R258). -/
def TextCollector.store (c : TextCollector) (B : Bytes) (p : Nat) : TextCollector :=
  { c with tbuf := c.tbuf.writeBytes (13 * p) (slice B 1 14), next := BitVec.ofNat 4 (p + 1) }

/-- The start of a message of `cc` blocks (47_lsf_meta.md R258). -/
def TextCollector.begin (c : TextCollector) (cc : BitVec 4) : TextCollector :=
  { c with active := true, cnt := cc, next := 0 }

/-- After a block was stored: the message is complete when NEXT = CNT, and its trailing zeros are removed; otherwise
the action stands (47_lsf_meta.md R258). -/
def TextCollector.settle (c : TextCollector) (a : TextAction) : TextCollector × Except Err TextAction :=
  if c.next = c.cnt then (c.cleared, .ok (.complete (trimEnd 0 (c.bytes 0 (13 * c.cnt.toNat))))) else (c, .ok a)

/-- `text_accept(B)` (47_lsf_meta.md R258): the collector after it, and the action or the error. -/
def textAccept (P : Params) (c : TextCollector) (B : Bytes) : TextCollector × Except Err TextAction :=
  let control := B.getD 0 0
  let cc : BitVec 4 := control.extractLsb' 4 4
  let p : Int := (control.extractLsb' 0 4).toNat - P.textIndexBase
  if cc = 0 ∨ p < 0 ∨ p ≥ cc.toNat then (c.cleared, .error (.reassembly .badCount))
  else
    let pos := p.toNat
    if c.active ∧ cc = c.cnt ∧ pos + 1 = c.next.toNat ∧ slice B 1 14 = c.bytes (13 * pos) (13 * pos + 13) then
      (c, .ok .duplicate)
    else if c.active ∧ cc = c.cnt ∧ pos = c.next.toNat then (c.store B pos).settle .stored
    else if pos = 0 then ((c.begin cc).store B 0).settle (if c.active then .restarted else .stored)
    else (c.cleared, .error (.reassembly .outOfOrder))

/-- The pseudocode of TEXT_PACK (47_lsf_meta.md R266). -/
def textPackRun (P : Params) (len : BitVec 16) (s : State) : Run :=
  let L := len.toNat
  if L > 195 then s.raise (.invalidInput .badLength)
  else
    let blk := textFrag P (s.ibytes 0 L)
    (((s.obWrite 0 blk.flatten).setResNat 0 blk.length).setResNat 1 L).ok

/-- TEXT_PACK (47_lsf_meta.md R266). -/
def execTextPack (len : BitVec 16) (s : State) : Host.Outcome State Fault Refusal := (textPackRun hw len s).finish

/-- The pseudocode of TEXT_RESET (47_lsf_meta.md R267); the contents of TBUF become unspecified (93 U2; log 3). -/
def textResetRun (s : State) : Run := (s.setText (TextCollector.idle (s.text.epoch + 1))).ok

/-- TEXT_RESET (47_lsf_meta.md R267). -/
def execTextReset (s : State) : Host.Outcome State Fault Refusal := (textResetRun s).finish

/-- What TEXT_ACCEPT writes for an action (47_lsf_meta.md R268). -/
def State.writeTextAction (s : State) : TextAction → State
  | .stored => s.setResNat 0 0
  | .duplicate => s.setResNat 0 1
  | .complete text => ((s.obWrite 0 text).setResNat 0 2).setResNat 1 text.length
  | .restarted => s.setResNat 0 3

/-- The pseudocode of TEXT_ACCEPT (47_lsf_meta.md R268). -/
def textAcceptRun (P : Params) (s : State) : Run :=
  let r := textAccept P s.text (s.ibytes 0 14)
  let s1 := s.setText r.1
  match r.2 with
  | .error e => s1.raise e
  | .ok a => (((s1.writeTextAction a).setRes 2 (r.1.cnt.setWidth 32)).setRes 3 (r.1.next.setWidth 32)).ok

/-- TEXT_ACCEPT (47_lsf_meta.md R268). -/
def execTextAccept (s : State) : Host.Outcome State Fault Refusal := (textAcceptRun hw s).finish

end Sys2Proof.Machine
end

