-- ==== Sys2Proof/Machine/Dispatch.lean ====
section
/-! DEFINITION. The meaning of every command: one arm per constructor of Instr, each one call of a meaning. -/

namespace Sys2Proof.Machine

def exec (i : Instr) (s : State) : Host.Outcome State Fault Refusal :=
  match i with
  | .nop => Sys2Proof.Machine.execNop s
  | .clear => Sys2Proof.Machine.execClear s
  | .crc16 len => Sys2Proof.Machine.execCrc16 len s
  | .crc16Chk len => Sys2Proof.Machine.execCrc16Chk len s
  | .b40Enc len => Sys2Proof.Machine.execB40Enc len s
  | .b40Dec => Sys2Proof.Machine.execB40Dec s
  | .b40Decb => Sys2Proof.Machine.execB40Decb s
  | .typeBv2 => Sys2Proof.Machine.execTypeBv2 s
  | .typePv2 => Sys2Proof.Machine.execTypePv2 s
  | .typeBv3 => Sys2Proof.Machine.execTypeBv3 s
  | .typePv3 => Sys2Proof.Machine.execTypePv3 s
  | .typeDet => Sys2Proof.Machine.execTypeDet s
  | .golayEnc => Sys2Proof.Machine.execGolayEnc s
  | .golayDec => Sys2Proof.Machine.execGolayDec s
  | .golaySdec => Sys2Proof.Machine.execGolaySdec s
  | .lichEnc => Sys2Proof.Machine.execLichEnc s
  | .lichSdec => Sys2Proof.Machine.execLichSdec s
  | .convEnc len sched => Sys2Proof.Machine.execConvEnc len sched s
  | .punct len sched => Sys2Proof.Machine.execPunct len sched s
  | .viterbi len sched => Sys2Proof.Machine.execViterbi len sched s
  | .intlv len soft => Sys2Proof.Machine.execIntlv len soft s
  | .rand len soft => Sys2Proof.Machine.execRand len soft s
  | .prbsGen len => Sys2Proof.Machine.execPrbsGen len s
  | .berCnt len => Sys2Proof.Machine.execBerCnt len s
  | .lsfBuild => Sys2Proof.Machine.execLsfBuild s
  | .lsfParse => Sys2Proof.Machine.execLsfParse s
  | .metaPosPack => Sys2Proof.Machine.execMetaPosPack s
  | .metaPosUnpack => Sys2Proof.Machine.execMetaPosUnpack s
  | .metaEcsPack => Sys2Proof.Machine.execMetaEcsPack s
  | .metaEcsUnpack => Sys2Proof.Machine.execMetaEcsUnpack s
  | .aesivCtr => Sys2Proof.Machine.execAesivCtr s
  | .textPack len => Sys2Proof.Machine.execTextPack len s
  | .textReset => Sys2Proof.Machine.execTextReset s
  | .textAccept => Sys2Proof.Machine.execTextAccept s
  | .lichChunk => Sys2Proof.Machine.execLichChunk s
  | .lichReset => Sys2Proof.Machine.execLichReset s
  | .lichAccept => Sys2Proof.Machine.execLichAccept s
  | .lichAssemble => Sys2Proof.Machine.execLichAssemble s
  | .lichRx => Sys2Proof.Machine.execLichRx s
  | .pktBuild len => Sys2Proof.Machine.execPktBuild len s
  | .pktChunk len => Sys2Proof.Machine.execPktChunk len s
  | .pktReset => Sys2Proof.Machine.execPktReset s
  | .pktAccept => Sys2Proof.Machine.execPktAccept s
  | .pktFlush => Sys2Proof.Machine.execPktFlush s
  | .ipBuild => Sys2Proof.Machine.execIpBuild s
  | .ipParse => Sys2Proof.Machine.execIpParse s
  | .lsfTx => Sys2Proof.Machine.execLsfTx s
  | .lsfRx => Sys2Proof.Machine.execLsfRx s
  | .strTx => Sys2Proof.Machine.execStrTx s
  | .strRx => Sys2Proof.Machine.execStrRx s
  | .pktTx => Sys2Proof.Machine.execPktTx s
  | .pktRx => Sys2Proof.Machine.execPktRx s
  | .bertTx => Sys2Proof.Machine.execBertTx s
  | .bertRx => Sys2Proof.Machine.execBertRx s

end Sys2Proof.Machine
end

