-- ==== Sys2Proof/Machine/HostPort.lean ====
section
/-! DEFINITION. 20_memory.md: the host port: its address map, what a read returns, what a write does, the reset input,
and the host's own notation (30_encoding.md R99, R100). -/

namespace Sys2Proof.Machine

/-- A location of the host port (20_memory.md R60). -/
inductive Loc where
  | id
  | ctrl
  | status
  | cmd
  | arg (n : Fin 8)
  | res (n : Fin 8)
  | lichStat
  | pktStat
  | textStat
  | cmdcnt
  | param
  | ibuf (i : Nat)
  | obuf (i : Nat)
  deriving DecidableEq, Repr

/-- The register whose address is 4·k, 0x000..0x060 (20_memory.md R60). -/
def regLoc (k : Nat) : Loc :=
  if k = 0 then .id
  else if k = 1 then .ctrl
  else if k = 2 then .status
  else if k = 3 then .cmd
  else if k < 12 then .arg (Fin.ofNat 8 (k - 4))
  else if k < 20 then .res (Fin.ofNat 8 (k - 12))
  else if k = 20 then .lichStat
  else if k = 21 then .pktStat
  else if k = 22 then .textStat
  else if k = 23 then .cmdcnt
  else .param

/-- The location of an access, or none where the access takes a bus error (20_memory.md R60 to R63, 60_exceptions.md
R366): registers take 32-bit accesses at multiples of 4 only, buffers 8-bit accesses only, the rest is unmapped. -/
def locate (addr : BitVec 12) (width : Nat) : Option Loc :=
  let a := addr.toNat
  if a < 0x064 then
    if width = 32 ∧ a % 4 = 0 then some (regLoc (a / 4)) else none
  else if a < ibufBase then none
  else if a < obufBase then
    if width = 8 then some (.ibuf (a - ibufBase)) else none
  else if a < 0xC00 then
    if width = 8 then some (.obuf (a - obufBase)) else none
  else none

/-- The value a location holds (10_state.md R21 to R33). An 8-bit read returns its byte in bits 7:0. -/
def State.readLoc (s : State) : Loc → Word
  | .id => idValue
  | .ctrl => s.ctrlWord
  | .status => s.statusWord
  | .cmd => s.cmd
  | .arg n => s.argReg n
  | .res n => s.resReg n
  | .lichStat => s.lich.stat
  | .pktStat => s.pkt.stat
  | .textStat => s.text.stat
  | .cmdcnt => s.cmdcnt
  | .param => paramWord hw
  | .ibuf i => (s.ib i).setWidth 32
  | .obuf i => (s.ob i).setWidth 32

/-- The locations whose value is exact while BUSY = 1 (20_memory.md R67, 70_reset_and_hazards.md R384). -/
def Loc.exactWhileBusy : Loc → Bool
  | .id => true
  | .ctrl => true
  | .status => true
  | .cmd => true
  | .arg _ => true
  | .param => true
  | .ibuf _ => true
  | .res _ => false
  | .lichStat => false
  | .pktStat => false
  | .textStat => false
  | .cmdcnt => false
  | .obuf _ => false

/-- The next unspecified value of the host port (log 6). -/
def State.freeWord (s : State) : Word := Config.unspecifiedRead s.freeReads

/-- Answer a read with an unspecified value: the counter moves on, so that the next one is another value. -/
def State.answerFree (s : State) (answer : Word → Reply) : State :=
  { s with reply := answer s.freeWord, freeReads := s.freeReads + 1 }

/-- Answer the host's access; nothing else changes. -/
def State.answer (s : State) (r : Reply) : State := { s with reply := r }

/-- The unspecified data of an 8-bit read is a byte; that of any other is a word. -/
def junkOf (width : Nat) (v : Word) : Word := if width = 8 then (v.setWidth 8).setWidth 32 else v

/-- A host read (20_memory.md R61 to R63, R67, R68; 60_exceptions.md R366; 70_reset_and_hazards.md R380, R384): no side
effect in the block. While reset is asserted the data is unspecified and there is no bus error. -/
def hostRead (addr : BitVec 12) (width : Nat) (s : State) : State :=
  if s.inReset then s.answerFree fun v => .data (junkOf width v)
  else
    match locate addr width with
    | none => s.answerFree .readError
    | some l =>
      if s.busy && !l.exactWhileBusy then s.answerFree fun v => .data (junkOf width v)
      else s.answer (.data (s.readLoc l))

/-- `ARG[n] <- v`, by the host (10_state.md R21). -/
def State.setArg (s : State) (n : Fin 8) (v : Word) : State := { s with arg := s.arg.set n v }

/-- A host write to CTRL: bits 2:0 are written, bits 31:3 ignored (10_state.md R25). -/
def State.writeCtrl (s : State) (v : Word) : State := { s with ctrl := v.extractLsb' 0 3 }

/-- A host write to byte i of IBUF (10_state.md R32). -/
def State.writeIb (s : State) (i : Nat) (v : Byte) : State := { s with mem := s.mem.write (ibufBase + i) v }

/-- A busy violation: the write is ignored and VIOL is set (60_exceptions.md R367). -/
def State.setViol (s : State) : State := { s with viol := true }

/-- What an accepted write does to a location while BUSY = 0 (20_memory.md R63, R68, 10_state.md R27): read-only
locations ignore it, a CMD write starts a command. -/
def State.writeLoc (s : State) (v : Word) : Loc → State
  | .ctrl => s.writeCtrl v
  | .status => s.writeStatus v
  | .cmd => s.accept v
  | .arg n => s.setArg n v
  | .ibuf i => s.writeIb i (v.setWidth 8)
  | .id => s
  | .res _ => s
  | .lichStat => s
  | .pktStat => s
  | .textStat => s
  | .cmdcnt => s
  | .param => s
  | .obuf _ => s

/-- A host write (20_memory.md R61 to R63, R68; 60_exceptions.md R366, R367; 70_reset_and_hazards.md R380, R385). A
STATUS write is accepted even while BUSY = 1 (10_state.md R26); a write that takes a bus error sets no VIOL. While
reset is asserted a write has no effect and takes no bus error. -/
def hostWrite (addr : BitVec 12) (width : Nat) (v : Word) (s : State) : State :=
  if s.inReset then s.answer .written
  else
    match locate addr width with
    | none => s.answer .writeError
    | some l => ((if s.busy && l != .status then s.setViol else s.writeLoc v l)).answer .written

/-- One host event. Asserting reset makes the block deaf; deasserting it gives every piece of state its reset value
(70_reset_and_hazards.md R380). Deasserting a reset that is not asserted is no event. -/
def hostEvent (e : HostEvent) (s : State) : State :=
  match e with
  | .read addr width => hostRead addr width s
  | .write addr width v => hostWrite addr width v s
  | .resetAssert => { s with inReset := true }
  | .resetRelease => if s.inReset then s.afterReset else s

/-- The host's turn: its next event, if it has one, takes effect (20_memory.md R71); with none, the block keeps all its
state (60_exceptions.md R365). -/
def hostTurn (s : State) : State :=
  match s.inbox with
  | [] => s
  | e :: rest => hostEvent e { s with inbox := rest, countdown := s.countdown - 1 }

/-! ## The host's notation (30_encoding.md R99, R100) -/

/-- `W32 a, v` -/
def w32 (a : BitVec 12) (v : Word) : HostEvent := .write a 32 v

/-- `R32 a` -/
def r32 (a : BitVec 12) : HostEvent := .read a 32

/-- `W8 a, v` -/
def w8 (a : BitVec 12) (v : Byte) : HostEvent := .write a 8 (v.setWidth 32)

/-- `WB a, b0 b1 …` -/
def wb : BitVec 12 → Bytes → List HostEvent
  | _, [] => []
  | a, v :: vs => w8 a v :: wb (a + 1) vs

/-- `RB a, n` -/
def rb : BitVec 12 → Nat → List HostEvent
  | _, 0 => []
  | a, n + 1 => .read a 8 :: rb (a + 1) n

/-- `POLL` for a command that is still in flight at `n` reads of STATUS: n + 1 reads, the last of which returns
BUSY = 0. -/
def poll (n : Nat) : List HostEvent := List.replicate (n + 1) (r32 0x008)

/-- `CMD name …`: the CMD write of a command -/
def cmdWrite (i : Instr) : HostEvent := w32 0x00C (encode i)

/-- `ARG n, v` -/
def argWrite (n : Fin 8) (v : Word) : HostEvent := w32 (0x010 + 4 * BitVec.ofNat 12 n.val) v

/-- `RES n` -/
def resRead (n : Fin 8) : HostEvent := r32 (0x030 + 4 * BitVec.ofNat 12 n.val)

end Sys2Proof.Machine
end

