-- ==== Sys2Proof/Machine/Step.lean ====
section
/-! DEFINITION. One step of the block: the engine completes the command in flight, or the host's next event takes
effect. -/

namespace Sys2Proof.Machine

/-- The engine step (60_exceptions.md R350 steps 2 to 4): the latched word is decoded and the command run, or the word
completes with ILLEGAL_COMMAND (R356). -/
def engineStep (s : State) : Host.Outcome State Fault Refusal :=
  match decode s.cmd with
  | .ok i => exec i s
  | .error e => rejectCommand e s

/-- One step of the block. -/
def step (s : State) : Host.Outcome State Fault Refusal :=
  if s.engineTurn then engineStep s else .next (hostTurn s)

/-- `s` with the command word of bits `w` accepted and about to run. The block fetches no instruction (10_state.md
R23): a command runs once its word has been written to CMD, so this stands for that write (log 4). -/
def State.withFetchWord (s : State) (nbits w : Nat) : State := s.withCommand (BitVec.ofNat 32 (w % 2 ^ nbits))

end Sys2Proof.Machine
end

