-- ==== Sys2Proof/Safety.lean ====
section
/-! DEFINITION. The words the claims are stated in: what a completion is, what a command may touch, what a command
depends on, which errors a command raises (60_exceptions.md R351, R352, R355), and the invariant every step keeps. -/

namespace Sys2Proof.Machine

/-! ## Frames -/

/-- Nothing that only the host writes has changed, and none of the model's own fields: ARG, CTRL, CMD, VIOL, the reset
input (10_state.md R21, R25, R27, R39, 60_exceptions.md R354, R355). -/
def HostSideKept (s t : State) : Prop :=
  t.arg = s.arg ∧ t.ctrl = s.ctrl ∧ t.cmd = s.cmd ∧ t.viol = s.viol ∧ t.inReset = s.inReset
    ∧ t.bufEpoch = s.bufEpoch ∧ t.freeReads = s.freeReads ∧ t.reply = s.reply
    ∧ t.inbox = s.inbox ∧ t.latencies = s.latencies ∧ t.countdown = s.countdown

/-- A command has completed with this error, or with none: BUSY = 0, DONE = 1, ERR and SUB are written, CMDCNT has
counted it (60_exceptions.md R350 step 4, R353, R354), and nothing on the host's side has changed. -/
def Completed (s t : State) (e : Option Err) : Prop :=
  t.busy = false ∧ t.done = true ∧ t.error = e ∧ t.cmdcnt = s.cmdcnt + 1 ∧ HostSideKept s t

/-- The three collectors are unchanged. -/
def CollectorsKept (s t : State) : Prop := t.lich = s.lich ∧ t.pkt = s.pkt ∧ t.text = s.text

/-- Every result register but those listed is unchanged (10_state.md R22). -/
def ResKept (s t : State) (written : List (Fin 8)) : Prop := ∀ n, n ∉ written → t.resReg n = s.resReg n

/-- Every byte of IBUF and OBUF but OB[0..n) is unchanged (10_state.md R33, 20_memory.md R74). -/
def BytesKept (s t : State) (n : Nat) : Prop :=
  ∀ a, ¬ (obufBase ≤ a ∧ a < obufBase + n) → t.byteAt a = s.byteAt a

/-- OB[i..) holds the byte sequence B. -/
def ObHolds (t : State) (i : Nat) (B : Bytes) : Prop := ∀ k (h : k < B.length), t.ob (i + k) = B[k]

/-- `exec` answers a next state in which the command has completed with `e`, no result register but those listed and no
byte but OB[0..n) has changed, and `post` holds (which says what became of the collectors). -/
def Gives (i : Instr) (s : State) (e : Option Err) (written : List (Fin 8)) (n : Nat) (post : State → Prop) : Prop :=
  ∃ t, exec i s = .next t ∧ Completed s t e ∧ ResKept s t written ∧ BytesKept s t n ∧ post t

/-- As `Gives`, and no collector has changed. -/
def Yields (i : Instr) (s : State) (e : Option Err) (written : List (Fin 8)) (n : Nat) (post : State → Prop) : Prop :=
  Gives i s e written n fun t => CollectorsKept s t ∧ post t

/-- `exec` answers a next state in which the command has completed with the error `e` and has done nothing else: no
result register, byte or collector has changed (60_exceptions.md R355). -/
def OnlyRaises (i : Instr) (s : State) (e : Err) : Prop := Yields i s (some e) [] 0 fun _ => True

/-! ## Reading a state as the rules do -/

/-- Bit i of the packed bit string at byte 0 of IBUF (20_memory.md R65). -/
def State.ibBit (s : State) (i : Nat) : Bool := (s.ib (i / 8)).getLsbD (7 - i % 8)

/-- Bit i of the packed bit string at byte 0 of OBUF (20_memory.md R65). -/
def State.obBit (s : State) (i : Nat) : Bool := (s.ob (i / 8)).getLsbD (7 - i % 8)

/-- RES[lo] and RES[hi] hold a 48-bit address (20_memory.md R66). -/
def ResAddr (t : State) (lo hi : Fin 8) (n : Nat) : Prop :=
  (t.resReg lo).toNat = n % 2 ^ 32 ∧ (t.resReg hi).toNat = n / 2 ^ 32

/-- RES[n] holds a number. -/
def ResIs (t : State) (n : Fin 8) (v : Nat) : Prop := (t.resReg n).toNat = v

/-- IB[i..) holds the byte sequence B. -/
def IbHolds (s : State) (i : Nat) (B : Bytes) : Prop := ∀ k (h : k < B.length), s.ib (i + k) = B[k]

/-- IB[0..n) is the soft image (0 to 0, 1 to 255: 00_scope.md R10) of the n bits packed in the OBUF of t, from position
`lo` on. -/
def SoftImage (t s' : State) (lo n : Nat) : Prop := ∀ k, lo ≤ k → k < n → s'.ib k = softBit (t.obBit k)

/-- The bitmap of the valid slots, `Σ_k SLOT[k].valid << k` (48_stream_packet_ip.md R286). -/
def validBitmap (l : LichCollector) : Nat :=
  ((List.finRange 6).map fun k => if l.slots[k].valid then 2 ^ k.val else 0).sum

/-- What `lsf_check` says of an LSF under the version enables (47_lsf_meta.md R251): the CRC first, then the version. -/
def lsfVerdict (v2 v3 : Bool) (L : Bytes) : Option Err :=
  if (crc16 (slice L 0 28)).toNat ≠ beNat (slice L 28 30) then some .crcMismatch
  else if beNat (slice L 12 14) / 4096 = 0 then (if v2 then none else some (.unsupportedVersion .v2))
  else (if v3 then none else some (.unsupportedVersion .v3))

/-- The version a TYPE value shows, as a number (43_type.md R162): 0 for V2, 1 for V3. -/
def versionCode (t : Nat) : Nat := if t / 4096 % 16 = 0 then 0 else 1

/-- The META tag code of a TYPE value (43_type.md R169). -/
def metaCode (t : Nat) : Nat :=
  if t / 4096 % 16 = 0 then
    (if t / 8 % 4 = 0 then [3, 1, 2, 15].getD (t / 32 % 4) 15
     else if t / 8 % 4 = 1 ∨ t / 8 % 4 = 2 then 5 else 15)
  else if t / 16 % 16 ≤ 4 then t / 16 % 16 else 15

/-- The summed distance of a soft sequence with erasures from a sequence of coded bits (45_conv_viterbi.md R205). -/
def frameDistance (X : List SoftPos) (c : Bits) : Nat := (List.zipWith posDist X c).sum

/-! ## What a host access does -/

/-- Nothing in the block has changed: only the host's side of the bus and the model's counter of unspecified values
may differ (20_memory.md R63, R68, 60_exceptions.md R366). -/
def BlockKept (s t : State) : Prop :=
  t.arg = s.arg ∧ t.res = s.res ∧ t.cmdcnt = s.cmdcnt ∧ t.ctrl = s.ctrl ∧ t.busy = s.busy ∧ t.done = s.done
    ∧ t.viol = s.viol ∧ t.error = s.error ∧ t.cmd = s.cmd ∧ t.mem = s.mem ∧ t.lich = s.lich ∧ t.pkt = s.pkt
    ∧ t.text = s.text ∧ t.inReset = s.inReset ∧ t.bufEpoch = s.bufEpoch ∧ t.latencies = s.latencies

/-- Whenever `e` is the host's next event and it is the host's turn, the step answers a next state in which the event
is done and `post` holds. -/
def HostDoes (s : State) (e : HostEvent) (post : State → Prop) : Prop :=
  ∀ rest, s.inbox = e :: rest → s.engineTurn = false → ∃ t, step s = .next t ∧ t.inbox = rest ∧ post t

/-- A read of the host is answered with this value and changes nothing in the block (20_memory.md R68). -/
def ReadGives (s : State) (addr width : Nat) (v : Word) : Prop :=
  HostDoes s (.read (BitVec.ofNat 12 addr) width) fun t => BlockKept s t ∧ t.reply = .data v

/-- A read of the host is answered with some value, not with a bus error, and changes nothing in the block. -/
def ReadAnswered (s : State) (addr width : Nat) : Prop :=
  HostDoes s (.read (BitVec.ofNat 12 addr) width) fun t => BlockKept s t ∧ ∃ v, t.reply = .data v

/-- A write of the host is accepted on the bus and changes nothing in the block (20_memory.md R63). -/
def WriteIgnored (s : State) (addr width : Nat) : Prop :=
  ∀ v, HostDoes s (.write (BitVec.ofNat 12 addr) width v) fun t => BlockKept s t ∧ t.reply = .written

/-- The accesses that take a bus error (60_exceptions.md R366): a register access that is not 32 bits wide or not
4-byte aligned, a buffer access that is not 8 bits wide, an access to an unmapped address. -/
def BusError (addr width : Nat) : Prop :=
  (addr < 0x064 ∧ (width ≠ 32 ∨ addr % 4 ≠ 0)) ∨ (0x400 ≤ addr ∧ addr < 0xC00 ∧ width ≠ 8)
    ∨ (0x064 ≤ addr ∧ addr < 0x400) ∨ 0xC00 ≤ addr

/-! ## What a command depends on -/

/-- The two states agree in everything a command reads: ARG, CTRL, IBUF and the collectors (00_scope.md R11,
10_state.md R37, R39). -/
def SameInputs (s s' : State) : Prop :=
  s'.arg = s.arg ∧ s'.ctrl = s.ctrl ∧ s'.lich = s.lich ∧ s'.pkt = s.pkt ∧ s'.text = s.text ∧ ∀ i < 1024, s'.ib i = s.ib i

/-! ## The opcode map as 30_encoding.md prints it -/

/-- The reserved OPC values (30_encoding.md R101, last line). -/
def reservedOpc (opc : Nat) : Bool :=
  (0x02 ≤ opc && opc ≤ 0x07) || (0x0A ≤ opc && opc ≤ 0x0F) || (0x13 ≤ opc && opc ≤ 0x17) || (0x1D ≤ opc && opc ≤ 0x1F)
    || (0x25 ≤ opc && opc ≤ 0x27) || (0x2B ≤ opc && opc ≤ 0x2F) || (0x34 ≤ opc && opc ≤ 0x3F)
    || (0x4A ≤ opc && opc ≤ 0x4F) || (0x55 ≤ opc && opc ≤ 0x57) || (0x5D ≤ opc && opc ≤ 0x5F)
    || (0x62 ≤ opc && opc ≤ 0x6F) || 0x78 ≤ opc

/-- The opcodes of the commands that use LEN (30_encoding.md R94): CRC16, CRC16_CHK, B40_ENC, CONV_ENC, PUNCT, VITERBI,
INTLV, RAND, PRBS_GEN, BER_CNT, TEXT_PACK, PKT_BUILD, PKT_CHUNK. -/
def lenOpc : List Nat := [0x08, 0x09, 0x10, 0x28, 0x29, 0x2A, 0x30, 0x31, 0x32, 0x33, 0x47, 0x58, 0x59]

/-- The opcodes of the commands that use SCHED (30_encoding.md R92): CONV_ENC, PUNCT, VITERBI. -/
def schedOpc : List Nat := [0x28, 0x29, 0x2A]

/-- The opcodes of the commands that use S (30_encoding.md R93): INTLV, RAND. -/
def softOpc : List Nat := [0x30, 0x31]

/-- A field the command word does not use is nonzero, or a reserved bit is set (30_encoding.md R95, R96). -/
def nonzeroField (w : Nat) : Prop :=
  w / 2 ^ 13 % 8 ≠ 0 ∨ (w % 256 ∉ lenOpc ∧ w / 2 ^ 16 ≠ 0) ∨ (w % 256 ∉ schedOpc ∧ w / 2 ^ 8 % 16 ≠ 0)
    ∨ (w % 256 ∉ softOpc ∧ w / 2 ^ 12 % 2 ≠ 0)

/-! ## Which errors a command raises -/

/-- The commands that check an LSF (47_lsf_meta.md R251). -/
def checksLsf : Instr → Bool
  | .lsfParse | .lichAssemble | .ipParse | .lsfRx => true
  | _ => false

/-- The column "raised by" of 60_exceptions.md R352 for INVALID_INPUT. -/
def raisesInput : InputFault → Instr → Bool
  | .badLength, .crc16 _ | .badLength, .crc16Chk _ | .badLength, .convEnc _ _ | .badLength, .punct _ _
  | .badLength, .viterbi _ _ | .badLength, .intlv _ _ | .badLength, .rand _ _ | .badLength, .prbsGen _
  | .badLength, .berCnt _ | .badLength, .textPack _ | .badLength, .pktChunk _ | .badLength, .bertTx
  | .badLength, .bertRx => true
  | .invalidChar, .b40Enc _ => true
  | .tooLong, .b40Enc _ | .tooLong, .pktBuild _ | .tooLong, .pktChunk _ => true
  | .outOfRange, .b40Dec => true
  | .fieldRange, .typeBv2 | .fieldRange, .typePv2 | .fieldRange, .typeBv3 | .fieldRange, .typePv3
  | .fieldRange, .typeDet | .fieldRange, .golayEnc | .fieldRange, .golayDec | .fieldRange, .metaPosPack
  | .fieldRange, .aesivCtr | .fieldRange, .lichChunk | .fieldRange, .lichReset | .fieldRange, .lichAccept
  | .fieldRange, .lichRx | .fieldRange, .pktBuild _ | .fieldRange, .ipBuild | .fieldRange, .prbsGen _
  | .fieldRange, .strRx | .fieldRange, .bertTx | .fieldRange, .bertRx => true
  | .reservedRange, .b40Dec | .reservedRange, .b40Decb => true
  | _, _ => false

/-- The column "raised by" of 60_exceptions.md R352 for REASSEMBLY. -/
def raisesReassembly : ReassemblyFault → Instr → Bool
  | .missing, .lichAssemble => true
  | .dupMismatch, .lichAccept | .dupMismatch, .lichRx | .dupMismatch, .pktAccept => true
  | .gap, .pktAccept => true
  | .missingEnd, .pktFlush => true
  | .badCount, .pktAccept | .badCount, .textAccept => true
  | .outOfOrder, .pktAccept | .outOfOrder, .textAccept => true
  | .short, .pktAccept => true
  | _, _ => false

/-- The column "raised by" of 60_exceptions.md R351 and R352. A command that is well-formed raises no
ILLEGAL_COMMAND. -/
def raises (e : Err) (i : Instr) : Bool :=
  match e with
  | .invalidInput f => raisesInput f i
  | .crcMismatch =>
    checksLsf i || (match i with
      | .crc16Chk _ | .pktAccept => true
      | _ => false)
  | .badMagic => i == .ipParse
  | .decodeFailure => i == .golayDec
  | .reassembly f => raisesReassembly f i
  | .unsupportedVersion _ => checksLsf i
  | .illegalCommand _ => false

/-- The error is one that the table of 60_exceptions.md R355 lists for the command: the command writes before it raises
it. -/
def writesBeforeRaise (i : Instr) (e : Err) : Bool :=
  match i, e with
  | .crc16Chk _, .crcMismatch => true
  | .lsfParse, .crcMismatch | .lsfParse, .unsupportedVersion _ => true
  | .lichAccept, .reassembly .dupMismatch => true
  | .lichAssemble, .reassembly .missing | .lichAssemble, .crcMismatch | .lichAssemble, .unsupportedVersion _ => true
  | .lichRx, .reassembly .dupMismatch => true
  | .ipParse, .crcMismatch | .ipParse, .unsupportedVersion _ => true
  | .lsfRx, .crcMismatch | .lsfRx, .unsupportedVersion _ => true
  | .textAccept, .reassembly _ => true
  | .pktAccept, .reassembly _ | .pktAccept, .crcMismatch => true
  | .pktFlush, .reassembly .missingEnd => true
  | _, _ => false

/-! ## The invariant -/

/-- The LICH collector: an empty slot holds zeros, and a collector keyed to no stream is empty (10_state.md R34,
48_stream_packet_ip.md R282, R285). -/
structure LichCollector.Ok (l : LichCollector) : Prop where
  empty_slot : ∀ k : Fin 6, l.slots[k].valid = false → l.slots[k] = Slot.empty
  unkeyed : l.sidValid = false → l.sid = 0 ∧ ∀ k : Fin 6, l.slots[k].valid = false

/-- The packet reassembler: EXP is at most 32, ACTIVE says whether it is 0, and every byte below 25·EXP has been
written, so no unspecified byte of PBUF is ever read (10_state.md R35, 93 U2). -/
structure PacketReassembler.Ok (p : PacketReassembler) : Prop where
  wf : p.pbuf.wf
  inside : p.pbuf.within 0 800
  exp_le : p.exp.toNat ≤ 32
  active_iff : p.active = true ↔ p.exp ≠ 0
  held : ∀ i < 25 * p.exp.toNat, (p.pbuf.find i).isSome

/-- The text collector: CNT and NEXT are 0 while it is idle, 0 < NEXT < CNT while it is active, and every byte below
13·NEXT has been written (10_state.md R36, 93 U2). -/
structure TextCollector.Ok (c : TextCollector) : Prop where
  wf : c.tbuf.wf
  inside : c.tbuf.within 0 195
  idle : c.active = false → c.cnt = 0 ∧ c.next = 0
  busy : c.active = true → 0 < c.next.toNat ∧ c.next.toNat < c.cnt.toNat
  held : ∀ i < 13 * c.next.toNat, (c.tbuf.find i).isSome

/-- The invariant of the block: the memories keep their canonical form and their bounds (20_memory.md R60), the
collectors are in a legal state, and a command in flight shows DONE = 0, ERR = 0 and SUB = 0 (60_exceptions.md
R350). -/
structure State.Inv (s : State) : Prop where
  mem_wf : s.mem.wf
  mem_inside : s.mem.within 0x400 0xC00
  lich : s.lich.Ok
  pkt : s.pkt.Ok
  text : s.text.Ok
  in_flight : s.busy = true → s.done = false ∧ s.error = none

end Sys2Proof.Machine
end

