-- ==== Sys2Proof/Certificates/Slice0/Obligations.lean ====
section
/-! DEFINITION. The statements for the provers, from the numbered rules of spec/. -/

open Sys2Proof Sys2Proof.Machine

/-! ## Encoding and decoding -/

/-- A step runs the decoded command: when it is the engine's turn and the latched word decodes to `i`, the step is
`exec i` at that state and adds nothing around it (60_exceptions.md R350); and so it is for a word placed by
`withFetchWord`. -/
def Obligations.StepRunsDecodedCommand : Prop :=
  (∀ (s : State) (i : Instr), s.engineTurn = true → decode s.cmd = .ok i → step s = exec i s)
  ∧ (∀ (s : State) (nbits w : Nat) (i : Instr), decodeTableWord nbits w = some i →
      step (s.withFetchWord nbits w) = exec i (s.withFetchWord nbits w))

/-- Words written out from 30_encoding.md R90, R101 decode to the commands they stand for, one or more of each
family. -/
def Obligations.SampleWordsDecode : Prop :=
  decode 0x00000000 = .ok .nop ∧ decode 0x00000001 = .ok .clear
  ∧ decode 0x04000008 = .ok (.crc16 1024) ∧ decode 0x000B0009 = .ok (.crc16Chk 11)
  ∧ decode 0x00050010 = .ok (.b40Enc 5) ∧ decode 0x00000012 = .ok .b40Decb
  ∧ decode 0x0000001C = .ok .typeDet ∧ decode 0x00000021 = .ok .golayDec ∧ decode 0x00000024 = .ok .lichSdec
  ∧ decode 0x00080328 = .ok (.convEnc 8 3) ∧ decode 0x00180229 = .ok (.punct 24 2)
  ∧ decode 0x01FC012A = .ok (.viterbi 508 1)
  ∧ decode 0x01700030 = .ok (.intlv 368 false) ∧ decode 0x01701031 = .ok (.rand 368 true)
  ∧ decode 0x00C50032 = .ok (.prbsGen 197) ∧ decode 0x00000040 = .ok .lsfBuild ∧ decode 0x00C30047 = .ok (.textPack 195)
  ∧ decode 0x00000054 = .ok .lichRx ∧ decode 0x03360058 = .ok (.pktBuild 822) ∧ decode 0x0000005B = .ok .pktAccept
  ∧ decode 0x00000061 = .ok .ipParse ∧ decode 0x00000073 = .ok .strRx ∧ decode 0x00000077 = .ok .bertRx
  ∧ decode 0x00000002 = .error .reservedOpcode ∧ decode 0xFFFFFFFF = .error .reservedOpcode
  ∧ decode 0x00002000 = .error .nonzeroField ∧ decode 0x00010000 = .error .nonzeroField
  ∧ decode 0x00001028 = .error .nonzeroField ∧ decode 0x00000428 = .error .badSched

/-- Decoding the encoding of a well-formed command gives it back, whatever its operands; and a word that decodes stands
for a well-formed command and is that command's only encoding (30_encoding.md R90, R96, R101). -/
def Obligations.DecodeEncodeRoundTrip : Prop :=
  (∀ i : Instr, i.wellFormed = true → decode (encode i) = .ok i)
  ∧ (∀ (w : Word) (i : Instr), decode w = .ok i → i.wellFormed = true ∧ encode i = w)

/-- The order of the decode checks (30_encoding.md R98 checks 1 to 3) on every one of the 2^32 words: a reserved OPC
first, then a nonzero unused field or reserved bit, then SCHED ≥ 4 where it is used; a word that passes them is a
well-formed command. The reserved opcodes and the fields in use are those R92, R93, R94 and R101 print. -/
def Obligations.DecodeChecksInOrder : Prop :=
  ∀ w : Word,
    (decode w = .error .reservedOpcode ↔ reservedOpc (w.toNat % 256) = true)
    ∧ (decode w = .error .nonzeroField ↔ reservedOpc (w.toNat % 256) = false ∧ nonzeroField w.toNat)
    ∧ (decode w = .error .badSched ↔ reservedOpc (w.toNat % 256) = false ∧ ¬ nonzeroField w.toNat
        ∧ w.toNat % 256 ∈ schedOpc ∧ 4 ≤ w.toNat / 2 ^ 8 % 16)

/-! ## The command lifecycle -/

/-- 60_exceptions.md R356: a word that fails decode completes with ILLEGAL_COMMAND and the sub-code of the check that
failed; no RES, OBUF or collector state changes, CMDCNT counts it, LASTOP is CMD[7:0]; and every word either is a
well-formed command or fails decode. -/
def Obligations.IllegalWordCompletes : Prop :=
  (∀ (s : State) (e : IllegalCommand), s.engineTurn = true → decode s.cmd = .error e →
    ∃ t, step s = .next t ∧ Completed s t (some (.illegalCommand e)) ∧ CollectorsKept s t ∧ ResKept s t []
      ∧ BytesKept s t 0 ∧ t.errField = 7 ∧ t.lastop.toNat = s.cmd.toNat % 256
      ∧ t.subField.toNat = (match e with
        | .reservedOpcode => 1
        | .nonzeroField => 2
        | .badSched => 3))
  ∧ (∀ w : Word, (∃ i, decode w = .ok i ∧ i.wellFormed = true) ∨ ∃ e, decode w = .error e)

/-- Every command completes in every state: `exec` answers a next state in which BUSY = 0, DONE = 1, CMDCNT has counted
it, and ARG, CTRL, CMD, VIOL and every byte of IBUF are as before (60_exceptions.md R350, R353, R354). -/
def Obligations.EveryCommandCompletes : Prop :=
  ∀ (i : Instr) (s : State), ∃ t e, exec i s = .next t ∧ Completed s t e ∧ ∀ j < 1024, t.ib j = s.ib j

/-- 10_state.md R26, R27, 60_exceptions.md R350 step 1: a CMD write while BUSY = 0 latches the word and sets BUSY = 1,
DONE = 0, ERR = 0, SUB = 0 and LASTOP = CMD[7:0]; nothing else in the block changes. -/
def Obligations.AcceptanceLatches : Prop :=
  ∀ (s : State) (w : Word), s.inReset = false → s.busy = false →
    HostDoes s (.write 0x00C 32 w) fun t =>
      t.cmd = w ∧ t.busy = true ∧ t.done = false ∧ t.errField = 0 ∧ t.subField = 0 ∧ t.errFlag = false
      ∧ t.lastop.toNat = w.toNat % 256 ∧ t.viol = s.viol
      ∧ t.statusWord.toNat = w.toNat % 256 * 2 ^ 24 + s.viol.toNat * 4 + 1
      ∧ t.reply = .written ∧ t.arg = s.arg ∧ t.res = s.res ∧ t.cmdcnt = s.cmdcnt ∧ t.ctrl = s.ctrl ∧ t.mem = s.mem
      ∧ CollectorsKept s t

/-- 60_exceptions.md R367, 70_reset_and_hazards.md R385: a host write while BUSY = 1 to a location other than STATUS is
ignored and sets VIOL, and nothing else; one that is also a bus error sets no VIOL. -/
def Obligations.BusyWriteSetsViolation : Prop :=
  ∀ (s : State) (addr : BitVec 12) (width : Nat) (v : Word), s.inReset = false → s.busy = true → addr ≠ 0x008 →
    HostDoes s (.write addr width v) fun t =>
      (¬ BusError addr.toNat width → BlockKept { s with viol := true } t ∧ t.reply = .written)
      ∧ (BusError addr.toNat width → BlockKept s t ∧ t.reply = .writeError)

/-- 60_exceptions.md R366: a misaligned, wrong-width or unmapped access takes a bus error, and nothing in the block
changes; every other access takes none. -/
def Obligations.BusErrorHasNoEffect : Prop :=
  ∀ (s : State) (addr : BitVec 12) (width : Nat), s.inReset = false →
    (BusError addr.toNat width →
      (HostDoes s (.read addr width) fun t => BlockKept s t ∧ ∃ junk, t.reply = .readError junk)
      ∧ ∀ v, HostDoes s (.write addr width v) fun t => BlockKept s t ∧ t.reply = .writeError)
    ∧ (¬ BusError addr.toNat width →
      (HostDoes s (.read addr width) fun t => ∃ v, t.reply = .data v)
      ∧ ∀ v, HostDoes s (.write addr width v) fun t => t.reply = .written)

/-- What the host reads (20_memory.md R60, R67, R68, 70_reset_and_hazards.md R384): each register and buffer byte at its
address; ID, CTRL, STATUS, CMD, PARAM, ARG and IBUF exactly even while BUSY = 1, the others exactly while BUSY = 0 and
some value while BUSY = 1. STATUS (10_state.md R26) is LASTOP 31:24, SUB 23:16, ERR 11:8, ERRF 3, VIOL 2, DONE 1, BUSY 0;
LICH_STAT (R28) is SID 31:16, SID_VALID 8, VALID 5:0; PKT_STAT (R29) is HELD 25:16, EXP 13:8, ACTIVE 0, for EXP ≤ 32,
which the invariant holds it to; TEXT_STAT (R30) is HELD 23:16, NEXT 11:8, CNT 7:4, ACTIVE 0; HELD is 25 bytes for each
chunk and 13 for each block. No read changes anything in the block. That a read while BUSY = 1 is answered with a free
value is the model's form of 93 U3 (log 6). -/
def Obligations.HostReadsAtAddresses : Prop :=
  ∀ s : State, s.inReset = false →
    ReadGives s 0x000 32 0x4D313707 ∧ ReadGives s 0x004 32 (s.ctrl.setWidth 32)
    ∧ ReadGives s 0x008 32 (BitVec.ofNat 32 (s.cmd.toNat % 256 * 2 ^ 24 + s.subField.toNat * 2 ^ 16
        + s.errField.toNat * 2 ^ 8 + (if s.errField = 0 then 0 else 8) + s.viol.toNat * 4 + s.done.toNat * 2
        + s.busy.toNat))
    ∧ ReadGives s 0x00C 32 s.cmd ∧ ReadGives s 0x060 32 0x00800310
    ∧ (∀ n : Fin 8, ReadGives s (0x010 + 4 * n.val) 32 (s.argReg n))
    ∧ (∀ i < 1024, ReadGives s (0x400 + i) 8 ((s.ib i).setWidth 32))
    ∧ (s.busy = false →
        (∀ n : Fin 8, ReadGives s (0x030 + 4 * n.val) 32 (s.resReg n))
        ∧ ReadGives s 0x050 32 (BitVec.ofNat 32
            (s.lich.sid.toNat * 2 ^ 16 + s.lich.sidValid.toNat * 2 ^ 8 + validBitmap s.lich))
        ∧ (s.pkt.exp.toNat ≤ 32 → ReadGives s 0x054 32 (BitVec.ofNat 32
            (25 * s.pkt.exp.toNat * 2 ^ 16 + s.pkt.exp.toNat * 2 ^ 8 + s.pkt.active.toNat)))
        ∧ ReadGives s 0x058 32 (BitVec.ofNat 32
            (13 * s.text.next.toNat * 2 ^ 16 + s.text.next.toNat * 2 ^ 8 + s.text.cnt.toNat * 2 ^ 4
              + s.text.active.toNat))
        ∧ ReadGives s 0x05C 32 s.cmdcnt ∧ ∀ i < 1024, ReadGives s (0x800 + i) 8 ((s.ob i).setWidth 32))
    ∧ (s.busy = true →
        (∀ n : Fin 8, ReadAnswered s (0x030 + 4 * n.val) 32)
        ∧ ReadAnswered s 0x050 32 ∧ ReadAnswered s 0x054 32 ∧ ReadAnswered s 0x058 32 ∧ ReadAnswered s 0x05C 32
        ∧ ∀ i < 1024, ReadAnswered s (0x800 + i) 8)

/-- What the host writes while BUSY = 0 (20_memory.md R60, R63, R71, 10_state.md R21, R25, R32): ARGn, the bits 2:0 of
CTRL and a byte of IBUF take the value, and nothing else changes; a write to a read-only location is accepted and
changes nothing. -/
def Obligations.HostWritesAtAddresses : Prop :=
  ∀ s : State, s.inReset = false → s.busy = false →
    (∀ (n : Fin 8) (v : Word), HostDoes s (.write (BitVec.ofNat 12 (0x010 + 4 * n.val)) 32 v) fun t =>
      BlockKept { s with arg := t.arg } t ∧ t.reply = .written ∧ t.argReg n = v ∧ ∀ m, m ≠ n → t.argReg m = s.argReg m)
    ∧ (∀ v : Word, HostDoes s (.write 0x004 32 v) fun t =>
      BlockKept { s with ctrl := t.ctrl } t ∧ t.reply = .written ∧ t.ctrlWord.toNat = v.toNat % 8)
    ∧ (∀ i < 1024, ∀ v : Word, HostDoes s (.write (BitVec.ofNat 12 (0x400 + i)) 8 v) fun t =>
      BlockKept { s with mem := t.mem } t ∧ t.reply = .written ∧ (t.ib i).toNat = v.toNat % 256
      ∧ ∀ a, a ≠ 0x400 + i → t.byteAt a = s.byteAt a)
    ∧ WriteIgnored s 0x000 32 ∧ (∀ n : Fin 8, WriteIgnored s (0x030 + 4 * n.val) 32) ∧ WriteIgnored s 0x050 32
    ∧ WriteIgnored s 0x054 32 ∧ WriteIgnored s 0x058 32 ∧ WriteIgnored s 0x05C 32 ∧ WriteIgnored s 0x060 32
    ∧ ∀ i < 1024, WriteIgnored s (0x800 + i) 8

/-- 60_exceptions.md R359 and 10_state.md R26: a STATUS write, BUSY = 1 or not, clears DONE where its bit 1 is 1 and
VIOL where its bit 2 is 1, and ignores its other bits; it restores nothing. -/
def Obligations.StatusWriteClears : Prop :=
  ∀ (s : State) (v : Word), s.inReset = false → HostDoes s (.write 0x008 32 v) fun t =>
    BlockKept { s with done := t.done, viol := t.viol } t ∧ t.reply = .written
    ∧ (t.done = true ↔ s.done = true ∧ v.toNat / 2 % 2 = 0) ∧ (t.viol = true ↔ s.viol = true ∧ v.toNat / 4 % 2 = 0)

/-- 10_state.md R40, 60_exceptions.md R358: IRQ is DONE and IRQ_EN. Every completion, with or without an error, raises it
when IRQ_EN is 1; acceptance of a CMD write lowers it; setting IRQ_EN while DONE = 1 raises it at once; it is 0 at reset.
That this also holds of states in which reset is asserted, of which the spec does not speak, is the model's choice
(log 25, DESIGN CHOICE). -/
def Obligations.InterruptLine : Prop :=
  (∀ s : State, s.irq = true ↔ s.done = true ∧ s.ctrl.toNat % 2 = 1)
  ∧ (∀ (i : Instr) (s : State), ∃ t, exec i s = .next t ∧ (t.irq = true ↔ s.ctrl.toNat % 2 = 1))
  ∧ (∀ (s : State) (w : Word), s.inReset = false → s.busy = false →
      HostDoes s (.write 0x00C 32 w) fun t => t.irq = false)
  ∧ (∀ (s : State) (v : Word), s.inReset = false → s.busy = false →
      HostDoes s (.write 0x004 32 v) fun t => (t.irq = true ↔ s.done = true ∧ v.toNat % 2 = 1))
  ∧ State.reset.irq = false

/-- 70_reset_and_hazards.md R380, R381, with two clauses that R380 does not state: that the assertion leaves the block's
state as it was until the release is the model's choice (log 26, DESIGN CHOICE), and that the engine does not run in
between is inferred (log 8, DEDUCED). While reset is asserted a read is answered with some value and a write with
nothing, neither changes the block, and none takes a bus error; when it is released every register reads its reset value
of the table and the abandoned command does not count. Every collector is empty right after reset, in the machine's start
state and after a reset event. -/
def Obligations.ResetEventAndValues : Prop :=
  ((∀ s : State, HostDoes s .resetAssert fun t => t.inReset = true ∧ BlockKept { s with inReset := true } t)
   ∧ (∀ s : State, s.inReset = true → s.engineTurn = false
       ∧ (∀ addr width, HostDoes s (.read addr width) fun t => BlockKept s t ∧ ∃ v, t.reply = .data v)
       ∧ (∀ addr width v, HostDoes s (.write addr width v) fun t => BlockKept s t ∧ t.reply = .written)
       ∧ HostDoes s .resetRelease fun t =>
           t.inReset = false ∧ t.busy = false ∧ (∀ l, t.readLoc l = (match l with
             | .id => 0x4D313707
             | .ctrl => 0x00000006
             | .param => 0x00800310
             | .ibuf i => (t.ib i).setWidth 32
             | .obuf i => (t.ob i).setWidth 32
             | _ => 0)) ∧ t.irq = false))
  ∧ (∀ t : State, (t = State.reset ∨ ∃ s : State, s.inReset = true ∧ hostEvent .resetRelease s = t) →
     (∀ k : Fin 6, t.lich.slots[k].valid = false ∧ t.lich.slots[k].data = 0 ∧ t.lich.slots[k].metric = 0)
     ∧ t.lich.sid = 0 ∧ t.lich.sidValid = false ∧ t.pkt.active = false ∧ t.pkt.exp = 0 ∧ t.text.active = false
     ∧ t.text.cnt = 0 ∧ t.text.next = 0)

/-! ## Whole-machine rules -/

/-- The invariant of the block holds right after reset. -/
def Obligations.InvariantAtReset : Prop := State.reset.Inv

/-- Every step keeps the invariant: the memories keep their canonical form and bounds, the collectors a legal state in
which no unwritten byte of PBUF or TBUF is ever read, and a command in flight shows DONE = 0 and ERR = 0. The memory's
canonical form is the model's (log 2). -/
def Obligations.InvariantKept : Prop :=
  ∀ s t : State, s.Inv → step s = .next t → t.Inv

/-- A command's effect depends only on ARG, CTRL, IBUF and the collectors (00_scope.md R11, 10_state.md R37, R39): two
states that agree in those give the same error and the same collectors, and each result register and each byte of OBUF
either takes the same value in both or changes in neither. So no command's result depends on STATUS, CMD, CMDCNT, RES
or OBUF. -/
def Obligations.ResultsDependOnlyOnInputs : Prop :=
  ∀ (i : Instr) (s s' t t' : State), SameInputs s s' → exec i s = .next t → exec i s' = .next t' →
    t'.error = t.error ∧ t'.lich = t.lich ∧ t'.pkt = t.pkt ∧ t'.text = t.text
    ∧ (∀ n, t'.resReg n = t.resReg n ∨ (t.resReg n = s.resReg n ∧ t'.resReg n = s'.resReg n))
    ∧ (∀ k < 1024, t'.ob k = t.ob k ∨ (t.ob k = s.ob k ∧ t'.ob k = s'.ob k))

/-- 60_exceptions.md R355: a command that raises an error which the table of R355 does not list for it has changed no
result register, no byte and no collector. -/
def Obligations.ErrorsLeaveOutputsUnchanged : Prop :=
  ∀ (i : Instr) (s t : State) (e : Err), exec i s = .next t → t.error = some e → writesBeforeRaise i e = false →
    OnlyRaises i s e

/-- 10_state.md R34, R35, R36, 60_exceptions.md R355: only its own commands change a collector, and an error in one
collector's command never changes another collector. -/
def Obligations.CollectorsChangeOnlyByTheirCommands : Prop :=
  ∀ (i : Instr) (s t : State), exec i s = .next t →
    (i ∉ [.clear, .lichReset, .lichAccept, .lichRx, .strRx] → t.lich = s.lich)
    ∧ (i ∉ [.clear, .pktReset, .pktAccept, .pktFlush] → t.pkt = s.pkt)
    ∧ (i ∉ [.clear, .textReset, .textAccept] → t.text = s.text)

/-- 60_exceptions.md R351, R352: a well-formed command raises only the errors whose rows name it; and the numbers ERR and
SUB show for each error are those of the two tables, 0 and 0 after a command without error. -/
def Obligations.OnlyListedErrors : Prop :=
  (∀ (i : Instr) (s t : State) (e : Err), i.wellFormed = true → exec i s = .next t → t.error = some e →
    raises e i = true)
  ∧ (∀ s : State, s.error = none → s.errField = 0 ∧ s.subField = 0)
  ∧ ∀ (s : State) (e : Err), s.error = some e → (e, s.errField.toNat, s.subField.toNat) ∈
      [(Err.invalidInput .badLength, 1, 1), (Err.invalidInput .invalidChar, 1, 2), (Err.invalidInput .tooLong, 1, 3),
        (Err.invalidInput .outOfRange, 1, 4), (Err.invalidInput .fieldRange, 1, 5),
        (Err.invalidInput .reservedRange, 1, 6), (Err.crcMismatch, 2, 0), (Err.badMagic, 3, 0),
        (Err.decodeFailure, 4, 0), (Err.reassembly .missing, 5, 1), (Err.reassembly .dupMismatch, 5, 2),
        (Err.reassembly .gap, 5, 3), (Err.reassembly .missingEnd, 5, 4), (Err.reassembly .badCount, 5, 5),
        (Err.reassembly .outOfOrder, 5, 6), (Err.reassembly .short, 5, 7), (Err.unsupportedVersion .v2, 6, 1),
        (Err.unsupportedVersion .v3, 6, 2), (Err.illegalCommand .reservedOpcode, 7, 1),
        (Err.illegalCommand .nonzeroField, 7, 2), (Err.illegalCommand .badSched, 7, 3)]

/-! ## Control (40_control.md) -/

/-- 40_control.md R120, R121: NOP completes and changes nothing else; after it STATUS shows DONE = 1 and no error. CLEAR
empties every collector and zeroes the result registers; LICH_STAT, PKT_STAT and TEXT_STAT read 0 afterwards; OBUF and
IBUF, CTRL, ARG and VIOL stay. -/
def Obligations.ControlCommands : Prop :=
  (∀ s : State, Yields .nop s none [] 0 fun t =>
     t.statusWord.toNat = s.cmd.toNat % 256 * 2 ^ 24 + s.viol.toNat * 4 + 2)
  ∧ (∀ s : State, Gives .clear s none [0, 1, 2, 3, 4, 5, 6, 7] 0 fun t =>
     (∀ n, t.resReg n = 0)
     ∧ (∀ k : Fin 6, t.lich.slots[k].valid = false ∧ t.lich.slots[k].data = 0 ∧ t.lich.slots[k].metric = 0)
     ∧ t.lich.sid = 0 ∧ t.lich.sidValid = false ∧ t.pkt.active = false ∧ t.pkt.exp = 0
     ∧ t.text.active = false ∧ t.text.cnt = 0 ∧ t.text.next = 0
     ∧ t.lich.stat = 0 ∧ t.pkt.stat = 0 ∧ t.text.stat = 0)

/-! ## CRC (42_crc.md) -/

/-- 42_crc.md R151, R150: CRC16 writes the CRC of IB[0..LEN) to RES0 and, big-endian, to OB[0..2); LEN > 1024 raises
BAD_LENGTH; the CRC has the source's vectors, and that of a sequence followed by its own CRC is 0. -/
def Obligations.Crc16Command : Prop :=
  (∀ (s : State) (len : BitVec 16), len.toNat ≤ 1024 → Yields (.crc16 len) s none [0] 2 fun t =>
    ResIs t 0 (crc16 (s.ibytes 0 len.toNat)).toNat ∧ ObHolds t 0 (beBytes 2 (crc16 (s.ibytes 0 len.toNat)).toNat))
  ∧ (∀ (s : State) (len : BitVec 16), 1024 < len.toNat → OnlyRaises (.crc16 len) s (.invalidInput .badLength))
  ∧ (∀ B : Bytes, crc16 (B ++ beBytes 2 (crc16 B).toNat) = 0)
  ∧ crc16 [] = 0xFFFF ∧ crc16 [0x41] = 0x206E
  ∧ crc16 [0x31, 0x32, 0x33, 0x34, 0x35, 0x36, 0x37, 0x38, 0x39] = 0x772B

/-- 42_crc.md R152: CRC16_CHK writes the recomputed and the trailing CRC to RES0 and RES1, raises CRC_MISMATCH when
they differ, and BAD_LENGTH, with nothing written, when LEN < 2 or LEN > 1024. -/
def Obligations.Crc16ChkCommand : Prop :=
  ∀ (s : State) (len : BitVec 16),
    (2 ≤ len.toNat → len.toNat ≤ 1024 →
      Yields (.crc16Chk len) s
        (if (crc16 (s.ibytes 0 (len.toNat - 2))).toNat = beNat (s.ibytes (len.toNat - 2) len.toNat) then none
          else some .crcMismatch) [0, 1] 0 fun t =>
        ResIs t 0 (crc16 (s.ibytes 0 (len.toNat - 2))).toNat
        ∧ ResIs t 1 (beNat (s.ibytes (len.toNat - 2) len.toNat)))
    ∧ (len.toNat < 2 ∨ 1024 < len.toNat → OnlyRaises (.crc16Chk len) s (.invalidInput .badLength))

/-! ## Base-40 addresses (41_address.md) -/

/-- 41_address.md R130, R134: the alphabet (index 0 the space, 1..10 the digits, 11..36 the capital letters, 37 `-`, 38
`/`, 39 `.`, no other byte), and B40_ENC of a text of at most 9 bytes: "@ALL" is the broadcast address; `#` and alphabet
bytes are 40^9 plus their base-40 value; alphabet bytes are their base-40 value, first byte least significant, of class
NULL when it is 0; any other byte raises INVALID_CHAR; LEN > 9 raises TOO_LONG. RES0, RES1, RES2 and OB[0..6) are
written. -/
def Obligations.B40EncCommandAndAlphabet : Prop :=
  (idx40 0x20 = some 0 ∧ (∀ i < 10, idx40 (BitVec.ofNat 8 (0x30 + i)) = some (1 + i))
   ∧ (∀ i < 26, idx40 (BitVec.ofNat 8 (0x41 + i)) = some (11 + i))
   ∧ idx40 0x2D = some 37 ∧ idx40 0x2F = some 38 ∧ idx40 0x2E = some 39
   ∧ ∀ c : Byte, c.toNat < 0x20 ∨ (0x20 < c.toNat ∧ c.toNat < 0x2D) ∨ (0x39 < c.toNat ∧ c.toNat < 0x41) ∨ 0x5A < c.toNat →
       idx40 c = none)
  ∧ (∀ (s : State) (len : BitVec 16),
     let text := s.ibytes 0 len.toNat
     let value : Bytes → Nat := fun u => ((List.range u.length).map fun i => digit40 (u.getD i 0) * 40 ^ i).sum
     let gives : Nat → Nat → Prop := fun n cls =>
       Yields (.b40Enc len) s none [0, 1, 2] 6 fun t => ResAddr t 0 1 n ∧ ResIs t 2 cls ∧ ObHolds t 0 (beBytes 6 n)
     (9 < len.toNat → OnlyRaises (.b40Enc len) s (.invalidInput .tooLong))
     ∧ (len.toNat ≤ 9 →
       (text = [0x40, 0x41, 0x4C, 0x4C] → gives 0xFFFFFFFFFFFF 2)
       ∧ (∀ rest, text = 0x23 :: rest →
           ((∀ c ∈ rest, inAlphabet c = true) → gives (40 ^ 9 + value rest) 1)
           ∧ ((∃ c ∈ rest, inAlphabet c = false) → OnlyRaises (.b40Enc len) s (.invalidInput .invalidChar)))
       ∧ (text ≠ [0x40, 0x41, 0x4C, 0x4C] → text.head? ≠ some 0x23 →
           ((∀ c ∈ text, inAlphabet c = true) → gives (value text) (if value text = 0 then 3 else 0))
           ∧ ((∃ c ∈ text, inAlphabet c = false) → OnlyRaises (.b40Enc len) s (.invalidInput .invalidChar)))))

/-- 41_address.md R135, R136: B40_DEC of the address in ARG1:ARG0, and B40_DECB of the six bytes IB[0..6). By its class
the text is "@ALL", `#` and base-40 characters, the empty text, or base-40 characters; it goes to OB, its length to RES0,
the class to RES2, the numeric to RES4 and RES5, and nothing else changes. A reserved address raises RESERVED_RANGE, an
ARG1 above 16 bits raises OUT_OF_RANGE. -/
def Obligations.B40DecCommands : Prop :=
  ∀ s : State,
    let gives : Instr → Nat → Bytes → Nat → Prop := fun i n text cls =>
      Yields i s none [0, 2, 4, 5] text.length fun t =>
        ResIs t 0 text.length ∧ ResIs t 2 cls ∧ ResAddr t 4 5 n ∧ ObHolds t 0 text
    let decodes : Instr → Nat → Prop := fun i n =>
      (n = 0xFFFFFFFFFFFF → gives i n [0x40, 0x41, 0x4C, 0x4C] 2)
      ∧ (0xF46109000000 ≤ n → n < 0xFFFFFFFFFFFF → OnlyRaises i s (.invalidInput .reservedRange))
      ∧ (0xEE6B28000000 ≤ n → n < 0xF46109000000 → gives i n (0x23 :: dec40 hw (n - 0xEE6B28000000)) 1)
      ∧ (n = 0 → gives i n [] 3)
      ∧ (0 < n → n < 0xEE6B28000000 → gives i n (dec40 hw n) 0)
    (2 ^ 16 ≤ (s.argReg 1).toNat → OnlyRaises .b40Dec s (.invalidInput .outOfRange))
    ∧ ((s.argReg 1).toNat < 2 ^ 16 → decodes .b40Dec ((s.argReg 1).toNat * 2 ^ 32 + (s.argReg 0).toNat))
    ∧ decodes .b40Decb (beNat (s.ibytes 0 6))

/-- 41_address.md R133, pyM17 §8 properties 1 and 2: a callsign that B40_ENC accepts, decoded by B40_DECB from the six
bytes it wrote, is the callsign with its trailing spaces removed, of the same class; and dec40 undoes enc40 and enc40
undoes dec40. -/
def Obligations.CallsignRoundTrip : Prop :=
  (∀ (s t s' : State) (len : BitVec 16), len.toNat ≤ 9 → exec (.b40Enc len) s = .next t → t.error = none →
    IbHolds s' 0 [t.ob 0, t.ob 1, t.ob 2, t.ob 3, t.ob 4, t.ob 5] →
    let text := trimEnd 0x20 (s.ibytes 0 len.toNat)
    Yields .b40Decb s' none [0, 2, 4, 5] text.length fun t' =>
      ObHolds t' 0 text ∧ ResIs t' 0 text.length ∧ t'.resReg 2 = t.resReg 2 ∧ t'.resReg 4 = t.resReg 0
      ∧ t'.resReg 5 = t.resReg 1)
  ∧ (∀ u : Bytes, u.length ≤ 9 → (∀ c ∈ u, inAlphabet c = true) → dec40 hw (enc40 hw u) = trimEnd 0x20 u)
  ∧ ∀ n < 40 ^ 9, enc40 hw (dec40 hw n) = n

/-! ## TYPE fields (43_type.md) -/

/-- 43_type.md R160, R164, R165: TYPE_BV2 packs SP, DT, ET, ES and CAN from bit 0 upward into RES0 and raises
FIELD_RANGE when one exceeds its width; TYPE_PV2 unpacks them, the reserved bits and the detected version into
RES0..RES6 and raises FIELD_RANGE when ARG0 exceeds 16 bits. -/
def Obligations.TypeV2Commands : Prop :=
  ∀ s : State,
    let a : Fin 8 → Nat := fun n => (s.argReg n).toNat
    (a 0 ≤ 1 → a 1 ≤ 3 → a 2 ≤ 3 → a 3 ≤ 3 → a 4 ≤ 15 → Yields .typeBv2 s none [0] 0 fun t =>
      ResIs t 0 (a 0 + 2 * a 1 + 8 * a 2 + 32 * a 3 + 128 * a 4))
    ∧ (1 < a 0 ∨ 3 < a 1 ∨ 3 < a 2 ∨ 3 < a 3 ∨ 15 < a 4 → OnlyRaises .typeBv2 s (.invalidInput .fieldRange))
    ∧ (a 0 < 2 ^ 16 → Yields .typePv2 s none [0, 1, 2, 3, 4, 5, 6] 0 fun t =>
      ResIs t 0 (a 0 % 2) ∧ ResIs t 1 (a 0 / 2 % 4) ∧ ResIs t 2 (a 0 / 8 % 4) ∧ ResIs t 3 (a 0 / 32 % 4)
      ∧ ResIs t 4 (a 0 / 128 % 16) ∧ ResIs t 5 (a 0 / 2048) ∧ ResIs t 6 (versionCode (a 0)))
    ∧ (2 ^ 16 ≤ a 0 → OnlyRaises .typePv2 s (.invalidInput .fieldRange))

/-- 43_type.md R161, R162, R166 to R169: TYPE_BV3 packs PAYLOAD, ENC, SIGNED, META and CAN from bit 15 downward into
RES0 and raises FIELD_RANGE when one exceeds its width; TYPE_PV3 unpacks them and the detected version into RES0..RES4
and RES6, RES5 unwritten; TYPE_DET writes the detected version (0 when bits 15:12 are 0, else 1) to RES0 and the META tag
to RES1. The last two raise FIELD_RANGE when ARG0 exceeds 16 bits. -/
def Obligations.TypeV3AndDetectCommands : Prop :=
  (∀ s : State,
     let a : Fin 8 → Nat := fun n => (s.argReg n).toNat
     (a 0 ≤ 15 → a 1 ≤ 7 → a 2 ≤ 1 → a 3 ≤ 15 → a 4 ≤ 15 → Yields .typeBv3 s none [0] 0 fun t =>
       ResIs t 0 (4096 * a 0 + 512 * a 1 + 256 * a 2 + 16 * a 3 + a 4))
     ∧ (15 < a 0 ∨ 7 < a 1 ∨ 1 < a 2 ∨ 15 < a 3 ∨ 15 < a 4 → OnlyRaises .typeBv3 s (.invalidInput .fieldRange))
     ∧ (a 0 < 2 ^ 16 → Yields .typePv3 s none [0, 1, 2, 3, 4, 6] 0 fun t =>
       ResIs t 0 (a 0 / 4096) ∧ ResIs t 1 (a 0 / 512 % 8) ∧ ResIs t 2 (a 0 / 256 % 2) ∧ ResIs t 3 (a 0 / 16 % 16)
       ∧ ResIs t 4 (a 0 % 16) ∧ ResIs t 6 (versionCode (a 0)))
     ∧ (2 ^ 16 ≤ a 0 → OnlyRaises .typePv3 s (.invalidInput .fieldRange)))
  ∧ (∀ s : State,
     ((s.argReg 0).toNat < 2 ^ 16 → Yields .typeDet s none [0, 1] 0 fun t =>
       ResIs t 0 (versionCode (s.argReg 0).toNat) ∧ ResIs t 1 (metaCode (s.argReg 0).toNat))
     ∧ (2 ^ 16 ≤ (s.argReg 0).toNat → OnlyRaises .typeDet s (.invalidInput .fieldRange)))

/-! ## Golay and the LICH codec (44_golay.md) -/

/-- 44_golay.md R180, R186: GOLAY_ENC writes the codeword of ARG0, data on top, to RES0 and raises FIELD_RANGE when ARG0
exceeds 12 bits. The code is the one R180 gives for this hardware, written out: linear, with these 12 codewords for the
12 data bits; any two codewords differ in at least 8 bits. -/
def Obligations.GolayEncCommand : Prop :=
  (∀ s : State,
    ((s.argReg 0).toNat < 2 ^ 12 → Yields .golayEnc s none [0] 0 fun t =>
      ResIs t 0 (golay hw (BitVec.ofNat 12 (s.argReg 0).toNat)).toNat)
    ∧ (2 ^ 12 ≤ (s.argReg 0).toNat → OnlyRaises .golayEnc s (.invalidInput .fieldRange)))
  ∧ (∀ d d' : BitVec 12, golay hw (d ^^^ d') = golay hw d ^^^ golay hw d')
  ∧ ((List.range 12).map fun i => golay hw (BitVec.ofNat 12 (2 ^ i))) =
      [0x0018EB, 0x00293E, 0x004A97, 0x008DC6, 0x010367, 0x0206CD, 0x040D99, 0x0803DA, 0x1007B4, 0x200F68, 0x40063B,
        0x800C75]
  ∧ (∀ d : BitVec 12, (golay hw d).toNat / 2 ^ 12 = d.toNat)
  ∧ (∀ d d' : BitVec 12, d ≠ d' → 8 ≤ hamming (golay hw d) (golay hw d'))
  ∧ golay hw 0xABC = 0xABC23C ∧ golay hw 0xFFF = 0xFFFFFF

/-- 44_golay.md R182, R187: GOLAY_DEC corrects every error pattern of weight at most 3: data, number of corrected bits
and codeword go to RES0, RES1, RES2. A word with no codeword within distance 3, such as every error pattern of weight
4, raises DECODE_FAILURE with nothing written; ARG0 above 24 bits raises FIELD_RANGE. -/
def Obligations.GolayDecCorrects : Prop :=
  (∀ (s : State) (d : BitVec 12) (err : BitVec 24), popcount err ≤ 3 →
    s.argReg 0 = (golay hw d ^^^ err).setWidth 32 → Yields .golayDec s none [0, 1, 2] 0 fun t =>
      ResIs t 0 d.toNat ∧ ResIs t 1 (popcount err) ∧ ResIs t 2 (golay hw d).toNat)
  ∧ (∀ (s : State) (r : BitVec 24), s.argReg 0 = r.setWidth 32 → (∀ d, 3 < hamming (golay hw d) r) →
      OnlyRaises .golayDec s .decodeFailure)
  ∧ (∀ (s : State) (d : BitVec 12) (err : BitVec 24), popcount err = 4 →
      s.argReg 0 = (golay hw d ^^^ err).setWidth 32 → OnlyRaises .golayDec s .decodeFailure)
  ∧ ∀ s : State, 2 ^ 24 ≤ (s.argReg 0).toNat → OnlyRaises .golayDec s (.invalidInput .fieldRange)

/-- 44_golay.md R183, R188: GOLAY_SDEC gives the data, metric and codeword of the codeword of least summed distance from
IB[0..24), the lowest one among equals, and its distance from the hard-sliced input; the metric is at most 6120, and
the command never fails. -/
def Obligations.GolaySdecCommand : Prop :=
  ∀ s : State,
    let S := s.ibytes 0 24
    ∃ d : BitVec 12,
      (Yields .golaySdec s none [0, 1, 2, 3] 0 fun t =>
        ResIs t 0 d.toNat ∧ ResIs t 1 (golayMetric S (golay hw d)) ∧ ResIs t 2 (golay hw d).toNat
        ∧ ResIs t 3 ((List.range 24).countP fun k => (128 ≤ (s.ib k).toNat) != (golay hw d).getLsbD (23 - k)))
      ∧ golayMetric S (golay hw d) ≤ 6120
      ∧ ∀ d' : BitVec 12, golayMetric S (golay hw d) < golayMetric S (golay hw d')
          ∨ (golayMetric S (golay hw d) = golayMetric S (golay hw d') ∧ (golay hw d).toNat ≤ (golay hw d').toNat)

/-- 44_golay.md R184, R185, R189, R190: LICH_ENC writes the 96 bits of the four codewords of the unit, each MSB-first;
LICH_SDEC writes the unit of the four soft-decoded words, its counter, the summed metric, the bad flag (a word further
than 3 from its hard-sliced input, or a counter above 5) and the worst distance. -/
def Obligations.LichCodecCommands : Prop :=
  (∀ s : State, Yields .lichEnc s none [] 12 fun t =>
    ∀ j < 4, ∀ k < 24, t.obBit (24 * j + k)
      = (golay hw (BitVec.ofNat 12 (beNat (s.ibytes 0 6) / 2 ^ (36 - 12 * j)))).getLsbD (23 - k))
  ∧ ∀ s : State,
    let r : Nat → GolayResult := fun j => golaySoft hw (s.ibytes (24 * j) (24 * j + 24))
    let h : Nat → Nat := fun j => hamming (slicedWord hw (s.ibytes (24 * j) (24 * j + 24))) (r j).code
    let u : BitVec 48 := (r 0).data ++ (r 1).data ++ (r 2).data ++ (r 3).data
    let worst := max (max (h 0) (h 1)) (max (h 2) (h 3))
    Yields .lichSdec s none [0, 1, 2, 3] 6 fun t =>
      ObHolds t 0 (beBytes 6 u.toNat) ∧ ResIs t 0 (u.toNat / 2 ^ 45)
      ∧ ResIs t 1 ((r 0).metric + (r 1).metric + (r 2).metric + (r 3).metric)
      ∧ ResIs t 2 (if 3 < worst ∨ 5 < u.toNat / 2 ^ 45 then 1 else 0) ∧ ResIs t 3 worst

/-- A LICH unit survives up to three inverted soft bits in each of its four codewords: LICH_SDEC of the soft image of
the encoded unit with those bits inverted gives the unit, the metric 255 per inverted bit, and the flag bad only for a
counter above 5 (44_golay.md R183, R185, R190; pyM17 §8 property 4). -/
def Obligations.LichCodecCorrects : Prop :=
  ∀ (s : State) (u : BitVec 48) (err : Nat → BitVec 24), (∀ j < 4, popcount (err j) ≤ 3) →
    (∀ j < 4, ∀ k < 24, s.ib (24 * j + k) = softBit ((golay hw (unitWord u j) ^^^ err j).getLsbD (23 - k))) →
    Yields .lichSdec s none [0, 1, 2, 3] 6 fun t =>
      ObHolds t 0 (beBytes 6 u.toNat) ∧ ResIs t 0 (u.toNat / 2 ^ 45)
      ∧ ResIs t 1 (255 * (popcount (err 0) + popcount (err 1) + popcount (err 2) + popcount (err 3)))
      ∧ ResIs t 2 (if 5 < u.toNat / 2 ^ 45 then 1 else 0)
      ∧ ResIs t 3 (max (max (popcount (err 0)) (popcount (err 1))) (max (popcount (err 2)) (popcount (err 3))))

/-! ## Convolutional code (45_conv_viterbi.md) -/

/-- 45_conv_viterbi.md R200, R201: conv of N bits is 2(N+4) bits; bit 2t is the sum of the input bits t, t-3 and t-4, bit
2t+1 that of t, t-1, t-2 and t-4, the bits before the first and after the last being 0. -/
def Obligations.ConvolutionalCode : Prop :=
  ∀ u : Bits,
    let back : Nat → Nat → Bool := fun t k => if k ≤ t then u.getD (t - k) false else false
    (conv u).length = 2 * (u.length + 4)
    ∧ ∀ t < u.length + 4,
        (conv u).getD (2 * t) false = (back t 0 ^^ back t 3 ^^ back t 4)
        ∧ (conv u).getD (2 * t + 1) false = (back t 0 ^^ back t 1 ^^ back t 2 ^^ back t 4)

/-- The masks R202 of 45_conv_viterbi.md gives for this hardware, written out position by position; the kept counts R202
and R203 give for them, and with them the frame sizes of 49_pipeline_bert.md R332: P1 keeps 368 of 488, P2 272 of 296,
P3 368 of 420, and no mask 368 of 402. Every parameter value that meets the constraints of R202 and 00_scope.md R6 keeps
the frame sizes, this hardware's among them. -/
def Obligations.KeptCounts : Prop :=
  (schedMask hw 0 = [true] ∧ schedMask hw 1 = (List.range 61).map (fun i => i % 4 != 2)
    ∧ schedMask hw 2 = [true, true, true, true, true, true, true, true, true, true, true, false]
    ∧ schedMask hw 3 = [true, true, true, true, true, true, true, false])
  ∧ ParamsOk hw
  ∧ (∀ P : Params, ParamsOk P →
      (∀ u : Bits, u.length = 240 → (puncture (schedMask P 1) (conv u)).length = 368)
      ∧ (∀ u : Bits, u.length = 144 → (puncture (schedMask P 2) (conv u)).length = 272)
      ∧ (∀ u : Bits, u.length = 206 → (puncture (schedMask P 3) (conv u)).length = 368)
      ∧ [(schedMask P 1).length, (schedMask P 2).length, (schedMask P 3).length] = [61, 12, 8])
  ∧ ([8, 24, 296, 402, 420, 488, 1024].map (kept (schedMask hw 0)) = [8, 24, 296, 402, 420, 488, 1024])
  ∧ ([8, 24, 296, 402, 420, 488, 1024].map (kept (schedMask hw 1)) = [6, 18, 223, 303, 317, 368, 772])
  ∧ ([8, 24, 296, 402, 420, 488, 1024].map (kept (schedMask hw 2)) = [8, 22, 272, 369, 385, 448, 939])
  ∧ ([8, 24, 296, 402, 420, 488, 1024].map (kept (schedMask hw 3)) = [7, 21, 259, 352, 368, 427, 896])

/-- 45_conv_viterbi.md R203, R208, R209: CONV_ENC writes the coded bits the schedule keeps, packed, the unused low bits
0, and their number to RES0, LEN > 508 raising BAD_LENGTH; PUNCT does the same with the bits of IBUF, LEN > 8192 raising
BAD_LENGTH. The kept bits are those at the positions where the periodic mask of R202 is 1, from position 0 on: all of
them under NONE; all but positions 2, 6, 10, … of each 61; all but the last of every 12; all but the last of every 8. -/
def Obligations.ConvEncAndPunctCommands : Prop :=
  ∀ (s : State) (len : BitVec 16) (sched : BitVec 4), sched.toNat ≤ 3 →
    let mask : Nat → Bool := fun i =>
      if sched = 1 then i % 61 % 4 != 2 else if sched = 2 then i % 12 != 11 else if sched = 3 then i % 8 != 7 else true
    let keeps : Bits → Bits := fun c => ((List.range c.length).filter mask).map fun i => c.getD i false
    let input := (List.range len.toNat).map s.ibBit
    let writes : Instr → Bits → Prop := fun i c =>
      Yields i s none [0] ((c.length + 7) / 8) fun t => ResIs t 0 c.length
        ∧ ∀ k < 8 * ((c.length + 7) / 8), t.obBit k = c.getD k false
    (len.toNat ≤ 508 → writes (.convEnc len sched) (keeps (conv input))
      ∧ (keeps (conv input)).length = kept (schedMask hw sched) (2 * (len.toNat + 4)))
    ∧ (508 < len.toNat → OnlyRaises (.convEnc len sched) s (.invalidInput .badLength))
    ∧ (len.toNat ≤ 8192 → writes (.punct len sched) (keeps input) ∧ (keeps input).length = kept (schedMask hw sched) len.toNat)
    ∧ (8192 < len.toNat → OnlyRaises (.punct len sched) s (.invalidInput .badLength))

/-- 45_conv_viterbi.md R207, R210: VITERBI gives N bits, packed, and their metric, and that metric is the least distance
of the received soft values (erased positions counting 0) from the code of any N bits: the result is an exact
maximum-likelihood path. Among the N bits of that least distance it gives those whose value is least, bit j weighing
2^j: R206's tie goes to the lower-numbered predecessor, whose oldest bit is 0, and the last bits are traced back first.
The metric is at most 261120; RES1 is N and RES2 the number of soft bytes read. LEN > 508 raises BAD_LENGTH. -/
def Obligations.ViterbiIsMaximumLikelihood : Prop :=
  ∀ (s : State) (len : BitVec 16) (sched : BitVec 4), sched.toNat ≤ 3 →
    let N := len.toNat
    let mask := schedMask hw sched
    let K := kept mask (2 * (N + 4))
    let D : Bits → Nat := fun u => frameDistance (depuncture mask (2 * (N + 4)) (s.ibytes 0 K)) (conv u)
    let value : Bits → Nat := fun u => ((List.range N).map fun j => (u.getD j false).toNat * 2 ^ j).sum
    (N ≤ 508 → ∃ v : Bits, v.length = N
      ∧ (Yields (.viterbi len sched) s none [0, 1, 2] ((N + 7) / 8) fun t =>
          (∀ k < 8 * ((N + 7) / 8), t.obBit k = v.getD k false) ∧ ResIs t 0 (D v) ∧ ResIs t 1 N ∧ ResIs t 2 K)
      ∧ D v ≤ 261120 ∧ ∀ u : Bits, u.length = N → D v < D u ∨ (D v = D u ∧ value v ≤ value u))
    ∧ (508 < N → OnlyRaises (.viterbi len sched) s (.invalidInput .badLength))

/-- pyM17 §8 property 5 (45_conv_viterbi.md R207): VITERBI of the soft image of what CONV_ENC wrote, under the same
schedule, gives the encoded bits back with metric 0, for every length and every schedule. The spec states it as checked
on random round trips, not proved. -/
def Obligations.ConvViterbiRoundTrip : Prop :=
  ∀ (s t s' : State) (len : BitVec 16) (sched : BitVec 4), sched.toNat ≤ 3 → len.toNat ≤ 508 →
    exec (.convEnc len sched) s = .next t → SoftImage t s' 0 (kept (schedMask hw sched) (2 * (len.toNat + 4))) →
    Yields (.viterbi len sched) s' none [0, 1, 2] ((len.toNat + 7) / 8) fun t' =>
      (∀ k < len.toNat, t'.obBit k = s.ibBit k) ∧ ResIs t' 0 0

/-! ## Interleaver, randomizer, PRBS (46_interleave_randomize_prbs.md) -/

/-- 46 R230 to R233, R235, R236: INTLV of 368 elements puts element π(i) = (45i + 92i²) mod 368 at position i, hard bits
or soft bytes; π is an involution on 0..367. RAND flips the hard bits, and mirrors the soft bytes, where the 368-bit
expansion of RAND_SEQ is 1, the 46 bytes R232 gives for this hardware; both forms are their own inverse. Any LEN but 368
raises BAD_LENGTH. -/
def Obligations.IntlvAndRandCommands : Prop :=
  ((∀ s : State,
     (Yields (.intlv 368 false) s none [] 46 fun t =>
       ∀ i < 368, t.obBit i = s.ibBit ((45 * i + 92 * i ^ 2) % 368))
     ∧ (Yields (.intlv 368 true) s none [] 368 fun t => ∀ i < 368, t.ob i = s.ib ((45 * i + 92 * i ^ 2) % 368))
     ∧ ∀ (len : BitVec 16) (soft : Bool), len ≠ 368 → OnlyRaises (.intlv len soft) s (.invalidInput .badLength))
   ∧ ∀ i < 368, qpp i < 368 ∧ qpp (qpp i) = i)
  ∧ (let whitening : Bytes :=
     [0xD6, 0xB5, 0xE2, 0x30, 0x82, 0xFF, 0x84, 0x62, 0xBA, 0x4E, 0x96, 0x90, 0xD8, 0x98, 0xDD, 0x5D,
       0x0C, 0xC8, 0x52, 0x43, 0x91, 0x1D, 0xF8, 0x6E, 0x68, 0x2F, 0x35, 0xDA, 0x14, 0xEA, 0xCD, 0x76,
       0x19, 0x8D, 0xD5, 0x80, 0xD1, 0x33, 0x87, 0x13, 0x57, 0x18, 0x2D, 0x29, 0x78, 0xC3]
   let rb : Nat → Bool := fun i => (whitening.getD (i / 8) 0).getLsbD (7 - i % 8)
   randSeq = whitening
   ∧ (∀ s : State,
     (Yields (.rand 368 false) s none [] 46 fun t => ∀ i < 368, t.obBit i = (s.ibBit i ^^ rb i))
     ∧ (Yields (.rand 368 true) s none [] 368 fun t =>
         ∀ i < 368, (t.ob i).toNat = if rb i then 255 - (s.ib i).toNat else (s.ib i).toNat)
     ∧ ∀ (len : BitVec 16) (soft : Bool), len ≠ 368 → OnlyRaises (.rand len soft) s (.invalidInput .badLength))
   ∧ (∀ x : Bits, x.length = 368 → randomizeHard hw (randomizeHard hw x) = x)
   ∧ ∀ x : Bytes, x.length = 368 → randomizeSoft hw (randomizeSoft hw x) = x)

/-- 46 R234, R237: PRBS_GEN writes n bits, packed, with a[t] = a[t-9] ⊕ a[t-5], the nine bits before the first being the
seed, oldest in bit 8; RES0 is the register after them, so that generation can continue from it. n > 8192 raises
BAD_LENGTH, then a seed above 9 bits FIELD_RANGE. R238: BER_CNT counts the positions below n at which the bits of
IB[0..512) and IB[512..1024) differ, in RES0, and puts n in RES1; n > 4096 raises BAD_LENGTH. -/
def Obligations.PrbsAndBerCommands : Prop :=
  (∀ (s : State) (len : BitVec 16),
     let n := len.toNat
     let seed := s.argReg 0
     (n ≤ 8192 → seed.toNat < 512 → Yields (.prbsGen len) s none [0] ((n + 7) / 8) fun t =>
       let a : Nat → Nat → Bool := fun i back => if back ≤ i then t.obBit (i - back) else seed.getLsbD (back - 1 - i)
       (∀ i < n, t.obBit i = (a i 9 ^^ a i 5)) ∧ (∀ k, n ≤ k → k < 8 * ((n + 7) / 8) → t.obBit k = false)
       ∧ (∀ j < 9, (t.resReg 0).getLsbD j = a n (j + 1)) ∧ (t.resReg 0).toNat < 512)
     ∧ (8192 < n → OnlyRaises (.prbsGen len) s (.invalidInput .badLength))
     ∧ (n ≤ 8192 → 512 ≤ seed.toNat → OnlyRaises (.prbsGen len) s (.invalidInput .fieldRange)))
  ∧ (∀ (s : State) (len : BitVec 16),
     (len.toNat ≤ 4096 → Yields (.berCnt len) s none [0, 1] 0 fun t =>
       ResIs t 0 ((List.range len.toNat).countP fun i => s.ibBit i != s.ibBit (4096 + i)) ∧ ResIs t 1 len.toNat)
     ∧ (4096 < len.toNat → OnlyRaises (.berCnt len) s (.invalidInput .badLength)))

/-! ## LSF and META (47_lsf_meta.md) -/

/-- 47 R250, R251, R259, R260: LSF_BUILD copies IB[0..28) and appends the CRC; LSF_PARSE writes TYPE, version, META tag,
recomputed CRC and the two addresses to RES0..RES7 whatever the check says, then raises CRC_MISMATCH, or
UNSUPPORTED_VERSION when the layout is disabled in CTRL. An LSF that LSF_BUILD wrote parses with no error when its
version is enabled, and never with CRC_MISMATCH (pyM17 §8 property 8). -/
def Obligations.LsfBuildAndParse : Prop :=
  (∀ s : State,
     (let c := (crc16 (s.ibytes 0 28)).toNat
      Yields .lsfBuild s none [0] 30 fun t => ObHolds t 0 (s.ibytes 0 28) ∧ ObHolds t 28 (beBytes 2 c) ∧ ResIs t 0 c)
     ∧ (let L := s.ibytes 0 30
        let ty := beNat (s.ibytes 12 14)
        Yields .lsfParse s (lsfVerdict s.v2En s.v3En L) [0, 1, 2, 3, 4, 5, 6, 7] 0 fun t =>
         ResIs t 0 ty ∧ ResIs t 1 (versionCode ty) ∧ ResIs t 2 (metaCode ty) ∧ ResIs t 3 (crc16 (s.ibytes 0 28)).toNat
         ∧ ResAddr t 4 5 (beNat (s.ibytes 0 6)) ∧ ResAddr t 6 7 (beNat (s.ibytes 6 12))))
  ∧ (∀ s t s' : State, exec .lsfBuild s = .next t → (∀ k < 30, s'.ib k = t.ob k) →
     Yields .lsfParse s'
       (if versionCode (beNat (s.ibytes 12 14)) = 0 then (if s'.v2En then none else some (.unsupportedVersion .v2))
         else (if s'.v3En then none else some (.unsupportedVersion .v3)))
       [0, 1, 2, 3, 4, 5, 6, 7] 0 fun t' => ResIs t' 0 (beNat (s.ibytes 12 14)) ∧ t'.resReg 3 = t.resReg 0
         ∧ ResAddr t' 4 5 (beNat (s.ibytes 0 6)) ∧ ResAddr t' 6 7 (beNat (s.ibytes 6 12)))

/-- 47 R252, R261, R262: META_POS_PACK writes the 14 bytes of the position, speed capped at 255, and raises FIELD_RANGE
for a field out of range; META_POS_UNPACK reads any 14 bytes back into RES0..RES7, signed fields in two's complement; and
a position packed and unpacked is the operands again, the speed capped, the reserved byte 0. -/
def Obligations.MetaPositionPackAndUnpack : Prop :=
  (∀ s : State,
     let lat := (s.argReg 2).toInt
     let lon := (s.argReg 3).toInt
     let alt := (s.argReg 4).toInt
     let ok := (s.argReg 0).toNat ≤ 255 ∧ (s.argReg 1).toNat ≤ 255 ∧ -8388608 ≤ lat ∧ lat ≤ 8388607 ∧ -8388608 ≤ lon
       ∧ lon ≤ 8388607 ∧ -1500 ≤ alt ∧ alt ≤ 64035 ∧ (s.argReg 5).toNat ≤ 359
     (ok → Yields .metaPosPack s none [] 14 fun t =>
       (t.ob 0).toNat = (s.argReg 0).toNat ∧ (t.ob 1).toNat = (s.argReg 1).toNat
       ∧ ObHolds t 2 (beBytes 3 (lat % 16777216).toNat) ∧ ObHolds t 5 (beBytes 3 (lon % 16777216).toNat)
       ∧ ObHolds t 8 (beBytes 2 (alt + 1500).toNat) ∧ ObHolds t 10 (beBytes 2 (s.argReg 5).toNat)
       ∧ (t.ob 12).toNat = min (s.argReg 6).toNat 255 ∧ t.ob 13 = 0)
     ∧ (¬ ok → OnlyRaises .metaPosPack s (.invalidInput .fieldRange))
     ∧ Yields .metaPosUnpack s none [0, 1, 2, 3, 4, 5, 6, 7] 0 fun t =>
         let signed : Nat → Int := fun v => if v < 8388608 then v else (v : Int) - 16777216
         ResIs t 0 (s.ib 0).toNat ∧ ResIs t 1 (s.ib 1).toNat
         ∧ (t.resReg 2).toInt = signed (beNat (s.ibytes 2 5)) ∧ (t.resReg 3).toInt = signed (beNat (s.ibytes 5 8))
         ∧ (t.resReg 4).toInt = (beNat (s.ibytes 8 10) : Int) - 1500 ∧ ResIs t 5 (beNat (s.ibytes 10 12))
         ∧ ResIs t 6 (s.ib 12).toNat ∧ ResIs t 7 (s.ib 13).toNat)
  ∧ (∀ s t s' : State, exec .metaPosPack s = .next t → t.error = none → (∀ k < 14, s'.ib k = t.ob k) →
     Yields .metaPosUnpack s' none [0, 1, 2, 3, 4, 5, 6, 7] 0 fun t' =>
       (∀ n : Fin 8, n < 6 → t'.resReg n = s.argReg n) ∧ ResIs t' 6 (min (s.argReg 6).toNat 255) ∧ ResIs t' 7 0)

/-- 47 R253, R255, R263, R264, R265: META_ECS_PACK copies two addresses and appends two zero bytes; META_ECS_UNPACK
copies them and gives the reserved bytes and the numerics; AESIV_CTR appends the frame number to the IV and raises
FIELD_RANGE when ARG0 exceeds 16 bits. -/
def Obligations.MetaCallsignAndIvCommands : Prop :=
  ∀ s : State,
    (Yields .metaEcsPack s none [] 14 fun t => ObHolds t 0 (s.ibytes 0 12) ∧ ObHolds t 12 [0, 0])
    ∧ (Yields .metaEcsUnpack s none [0, 1, 2, 3, 4] 12 fun t => ObHolds t 0 (s.ibytes 0 12)
        ∧ ResIs t 0 (beNat (s.ibytes 12 14)) ∧ ResAddr t 1 2 (beNat (s.ibytes 0 6))
        ∧ ResAddr t 3 4 (beNat (s.ibytes 6 12)))
    ∧ ((s.argReg 0).toNat < 2 ^ 16 → Yields .aesivCtr s none [] 16 fun t =>
        ObHolds t 0 (s.ibytes 0 14) ∧ ObHolds t 14 (beBytes 2 (s.argReg 0).toNat))
    ∧ (2 ^ 16 ≤ (s.argReg 0).toNat → OnlyRaises .aesivCtr s (.invalidInput .fieldRange))

/-- 47 R256, R257, R266: TEXT_PACK of L ≤ 195 bytes writes n = max(1, ⌈L/13⌉) blocks of 14 bytes: the count and the
position, 13 text bytes, zeros past the text; L > 195 raises BAD_LENGTH. -/
def Obligations.TextPackCommand : Prop :=
  ∀ (s : State) (len : BitVec 16),
    let L := len.toNat
    let n := max 1 ((L + 12) / 13)
    (L ≤ 195 → Yields (.textPack len) s none [0, 1] (14 * n) fun t => ResIs t 0 n ∧ ResIs t 1 L
      ∧ ∀ p < n, (t.ob (14 * p)).toNat = 16 * n + p
        ∧ ∀ k < 13, t.ob (14 * p + 1 + k) = if 13 * p + k < L then s.ib (13 * p + k) else 0)
    ∧ (195 < L → OnlyRaises (.textPack len) s (.invalidInput .badLength))

/-- 47 R258, R267, R268: TEXT_RESET empties the text collector. TEXT_ACCEPT of a block: a malformed control byte raises
BAD_COUNT; a repeat of the last block is ignored; the next block is stored; a block at position 0 starts a new message;
any other block raises OUT_OF_ORDER; the last block completes the message, whose bytes go to OB without their trailing
zeros. An error leaves the collector idle and RES and OB as they were. -/
def Obligations.TextCollectorCommands : Prop :=
  (∀ s : State, Gives .textReset s none [] 0 fun t => t.lich = s.lich ∧ t.pkt = s.pkt ∧ t.text.active = false
    ∧ t.text.cnt = 0 ∧ t.text.next = 0 ∧ t.text.stat = 0)
  ∧ ∀ s : State,
    let c := s.text
    let cc := (s.ib 0).toNat / 16
    let p := (s.ib 0).toNat % 16
    let others : State → Prop := fun t => t.lich = s.lich ∧ t.pkt = s.pkt
    let fails : ReassemblyFault → Prop := fun f =>
      Gives .textAccept s (some (.reassembly f)) [] 0 fun t =>
        others t ∧ t.text = { c with active := false, cnt := 0, next := 0 }
    let stores : Nat → Prop := fun action =>
      (p + 1 < cc → Gives .textAccept s none [0, 2, 3] 0 fun t =>
        others t ∧ ResIs t 0 action ∧ ResIs t 2 cc ∧ ResIs t 3 (p + 1) ∧ t.text.active = true
        ∧ t.text.cnt.toNat = cc ∧ t.text.next.toNat = p + 1
        ∧ ∀ k, t.text.byte k = if 13 * p ≤ k ∧ k < 13 * p + 13 then s.ib (1 + (k - 13 * p)) else c.byte k)
      ∧ (p + 1 = cc →
        let text := trimEnd 0 (c.bytes 0 (13 * p) ++ s.ibytes 1 14)
        Gives .textAccept s none [0, 1, 2, 3] text.length fun t =>
          others t ∧ ResIs t 0 2 ∧ ResIs t 1 text.length ∧ ResIs t 2 0 ∧ ResIs t 3 0 ∧ ObHolds t 0 text
          ∧ t.text.active = false ∧ t.text.cnt = 0 ∧ t.text.next = 0)
    let continues := c.active = true ∧ c.cnt.toNat = cc
    let repeats := continues ∧ c.next.toNat = p + 1 ∧ s.ibytes 1 14 = c.bytes (13 * p) (13 * p + 13)
    if cc ≤ p then fails .badCount
    else if repeats then
      Yields .textAccept s none [0, 2, 3] 0 fun t => ResIs t 0 1 ∧ ResIs t 2 c.cnt.toNat ∧ ResIs t 3 c.next.toNat
    else if continues ∧ c.next.toNat = p then stores 0
    else if p = 0 then stores (if c.active then 3 else 0)
    else fails .outOfOrder

/-- A text that TEXT_PACK cut into blocks, fed block by block in order to an idle text collector, comes back at the last
block as the whole text without its trailing zeros; every block before it is stored (47 R257, R258, R266, R268). -/
def Obligations.TextRoundTrip : Prop :=
  ∀ (s t : State) (len : BitVec 16) (before after : Nat → State), len.toNat ≤ 195 →
    exec (.textPack len) s = .next t →
    let n := max 1 ((len.toNat + 12) / 13)
    (before 0).text.active = false →
    (∀ p < n, ∀ k < 14, (before p).ib k = t.ob (14 * p + k)) →
    (∀ p < n, exec .textAccept (before p) = .next (after p)) →
    (∀ p, p + 1 < n → (before (p + 1)).text = (after p).text) →
    let text := trimEnd 0 (s.ibytes 0 len.toNat)
    (∀ p, p + 1 < n → (after p).error = none ∧ ResIs (after p) 0 0)
    ∧ (after (n - 1)).error = none ∧ ResIs (after (n - 1)) 0 2 ∧ ResIs (after (n - 1)) 1 text.length
    ∧ ObHolds (after (n - 1)) 0 text ∧ (after (n - 1)).text.active = false

/-! ## Stream, packet, IP (48_stream_packet_ip.md) -/

/-- 48 R281, R284, R285: LICH_CHUNK writes the unit of chunk ARG0 (counter on top, five spare zero bits at the bottom)
and its 96 coded bits, and raises FIELD_RANGE for ARG0 > 5; LICH_RESET empties the LICH collector and keys it to ARG0,
and raises FIELD_RANGE above 16 bits. -/
def Obligations.LichChunkAndResetCommands : Prop :=
  ∀ s : State,
    let k := (s.argReg 0).toNat
    (k ≤ 5 →
      let u := k * 2 ^ 45 + beNat (s.ibytes (5 * k) (5 * k + 5)) * 2 ^ 5
      Yields .lichChunk s none [] 18 fun t => ObHolds t 0 (beBytes 6 u)
        ∧ ∀ j < 4, ∀ b < 24, t.obBit (48 + 24 * j + b) = (golay hw (BitVec.ofNat 12 (u / 2 ^ (36 - 12 * j)))).getLsbD (23 - b))
    ∧ (5 < k → OnlyRaises .lichChunk s (.invalidInput .fieldRange))
    ∧ (k < 2 ^ 16 → Gives .lichReset s none [] 0 fun t => t.pkt = s.pkt ∧ t.text = s.text
        ∧ (∀ j : Fin 6, t.lich.slots[j] = { valid := false, data := 0, metric := 0 }) ∧ t.lich.sid.toNat = k
        ∧ t.lich.sidValid = true ∧ t.lich.stat.toNat = k * 2 ^ 16 + 0x100)
    ∧ (2 ^ 16 ≤ k → OnlyRaises .lichReset s (.invalidInput .fieldRange))

/-- What `lich_accept` (48 R282) does with chunk `D` for slot `k` with metric `m` and stream id `sid`, said of the
collector before (`l`) and after (`l'`) and of the action: a new stream id empties the collector; an empty slot takes
the chunk (0); an identical chunk changes nothing (1); a different chunk of strictly lower metric replaces (2); any
other is rejected (3). -/
def LichOffered (l l' : LichCollector) (D : BitVec 40) (k : Fin 6) (m : Word) (sid : BitVec 16) (action : Nat) : Prop :=
  let fresh := l.sidValid = false ∨ sid ≠ l.sid
  let old : Fin 6 → Slot := fun j => if fresh then { valid := false, data := 0, metric := 0 } else l.slots[j]
  let taken : Slot := { valid := true, data := D, metric := m }
  l'.sid = sid ∧ l'.sidValid = true ∧ (∀ j, j ≠ k → l'.slots[j] = old j)
  ∧ (if (old k).valid = false then action = 0 ∧ l'.slots[k] = taken
     else if (old k).data = D then action = 1 ∧ l'.slots[k] = old k
     else if m.toNat < (old k).metric.toNat then action = 2 ∧ l'.slots[k] = taken
     else action = 3 ∧ l'.slots[k] = old k)

/-- 48 R282, R286: LICH_ACCEPT offers IB[0..5) to slot ARG0 with metric ARG1 under the stream id ARG2, writes the
bitmap of the valid slots to RES0 and the action to RES1, and raises DUP_MISMATCH after that on action 3; an operand out
of range raises FIELD_RANGE with nothing changed. -/
def Obligations.LichAcceptCommand : Prop :=
  ∀ s : State,
    ((s.argReg 0).toNat ≤ 5 → (s.argReg 2).toNat < 2 ^ 16 → ∃ action ≤ 3,
      Gives .lichAccept s (if action = 3 then some (.reassembly .dupMismatch) else none) [0, 1] 0 fun t =>
        t.pkt = s.pkt ∧ t.text = s.text ∧ ResIs t 0 (validBitmap t.lich) ∧ ResIs t 1 action
        ∧ LichOffered s.lich t.lich (BitVec.ofNat 40 (beNat (s.ibytes 0 5))) (Fin.ofNat 6 (s.argReg 0).toNat)
            (s.argReg 1) (BitVec.ofNat 16 (s.argReg 2).toNat) action)
    ∧ (5 < (s.argReg 0).toNat ∨ 2 ^ 16 ≤ (s.argReg 2).toNat → OnlyRaises .lichAccept s (.invalidInput .fieldRange))

/-- 48 R283, R287: LICH_ASSEMBLE writes the bitmap of the valid slots to RES0 and raises MISSING when a slot is empty;
otherwise OB[0..30) is the six chunks in order, RES1 the TYPE, RES2 the version, RES3 the recomputed CRC, and then the
LSF check decides the error. The collector never changes. -/
def Obligations.LichAssembleCommand : Prop :=
  ∀ s : State,
    let L := (List.finRange 6).flatMap fun k => beBytes 5 s.lich.slots[k].data.toNat
    let ty := beNat (slice L 12 14)
    ((∃ k : Fin 6, s.lich.slots[k].valid = false) →
      Yields .lichAssemble s (some (.reassembly .missing)) [0] 0 fun t => ResIs t 0 (validBitmap s.lich))
    ∧ ((∀ k : Fin 6, s.lich.slots[k].valid = true) →
      Yields .lichAssemble s (lsfVerdict s.v2En s.v3En L) [0, 1, 2, 3] 30 fun t => ResIs t 0 0x3F ∧ ObHolds t 0 L
        ∧ ResIs t 1 ty ∧ ResIs t 2 (versionCode ty) ∧ ResIs t 3 (crc16 (slice L 0 28)).toNat)

/-- 48 R288, 44 R185: LICH_RX soft-decodes IB[0..96) and offers the chunk to the collector: the unit to OB, the bitmap,
the action, the metric and the counter to RES0..RES3. A bad chunk is dropped with action 4 and no error, the collector
untouched; a rejected one raises DUP_MISMATCH after those writes; ARG0 above 16 bits raises FIELD_RANGE. -/
def Obligations.LichRxCommand : Prop :=
  ∀ s : State,
    let d := lichSoftDecode hw (s.ibytes 0 96)
    let wrote : State → Prop := fun t => t.pkt = s.pkt ∧ t.text = s.text ∧ ObHolds t 0 (beBytes 6 d.unit.toNat)
      ∧ ResIs t 0 (validBitmap t.lich) ∧ ResIs t 2 d.metric ∧ ResIs t 3 (d.unit.toNat / 2 ^ 45)
    ((s.argReg 0).toNat < 2 ^ 16 → d.bad = true → Gives .lichRx s none [0, 1, 2, 3] 6 fun t =>
      wrote t ∧ ResIs t 1 4 ∧ t.lich = s.lich)
    ∧ ((s.argReg 0).toNat < 2 ^ 16 → d.bad = false → d.unit.toNat / 2 ^ 45 ≤ 5 ∧ ∃ action ≤ 3,
      Gives .lichRx s (if action = 3 then some (.reassembly .dupMismatch) else none) [0, 1, 2, 3] 6 fun t =>
        wrote t ∧ ResIs t 1 action
        ∧ LichOffered s.lich t.lich (BitVec.ofNat 40 (d.unit.toNat / 2 ^ 5)) (Fin.ofNat 6 (d.unit.toNat / 2 ^ 45))
            (BitVec.ofNat 32 d.metric) (BitVec.ofNat 16 (s.argReg 0).toNat) action)
    ∧ (2 ^ 16 ≤ (s.argReg 0).toNat → OnlyRaises .lichRx s (.invalidInput .fieldRange))

/-- The chunks of one LSF, offered by LICH_ACCEPT in any order and any number of times under one new stream id, assemble
to that LSF as soon as each of the six was offered, and LICH_ASSEMBLE then gives the LSF's own verdict (48 R281 to
R283, R286, R287). -/
def Obligations.LichRoundTrip : Prop :=
  ∀ (L : Bytes) (n : Nat) (order : Nat → Fin 6) (before after : Nat → State) (sid : BitVec 16) (s' : State),
    L.length = 30 → 0 < n →
    ((before 0).lich.sidValid = false ∨ (before 0).lich.sid ≠ sid) →
    (∀ j < n, ((before j).argReg 0).toNat = (order j).val ∧ ((before j).argReg 2).toNat = sid.toNat
      ∧ IbHolds (before j) 0 (slice L (5 * (order j).val) (5 * (order j).val + 5))) →
    (∀ j < n, exec .lichAccept (before j) = .next (after j)) →
    (∀ j, j + 1 < n → (before (j + 1)).lich = (after j).lich) →
    s'.lich = (after (n - 1)).lich → (∀ k : Fin 6, ∃ j < n, order j = k) →
    (∀ j < n, (after j).error = none)
    ∧ Yields .lichAssemble s' (lsfVerdict s'.v2En s'.v3En L) [0, 1, 2, 3] 30 fun t =>
        ResIs t 0 0x3F ∧ ObHolds t 0 L ∧ ResIs t 1 (beNat (slice L 12 14))

/-- 48 R289, R290, R292, R293: PKT_BUILD writes the protocol id, the payload and their CRC, with the length, the chunk
count and the CRC in RES0..RES2; LEN > 822 raises TOO_LONG, then an ARG0 above 8 bits FIELD_RANGE. PKT_CHUNK cuts
IB[0..LEN) into chunks of 25 bytes and a metadata byte, the last one zero-padded and marked with EOF and its byte
count; LEN = 0 raises BAD_LENGTH and LEN > 825 TOO_LONG. -/
def Obligations.PacketBuildCommands : Prop :=
  ∀ (s : State) (len : BitVec 16),
    let L := len.toNat
    let n := (L + 24) / 25
    (L ≤ 822 → (s.argReg 0).toNat < 256 →
      let Q := BitVec.ofNat 8 (s.argReg 0).toNat :: s.ibytes 0 L
      Yields (.pktBuild len) s none [0, 1, 2] (L + 3) fun t => ObHolds t 0 (Q ++ beBytes 2 (crc16 Q).toNat)
        ∧ ResIs t 0 (L + 3) ∧ ResIs t 1 ((L + 27) / 25) ∧ ResIs t 2 (crc16 Q).toNat)
    ∧ (822 < L → OnlyRaises (.pktBuild len) s (.invalidInput .tooLong))
    ∧ (L ≤ 822 → 256 ≤ (s.argReg 0).toNat → OnlyRaises (.pktBuild len) s (.invalidInput .fieldRange))
    ∧ (1 ≤ L → L ≤ 825 → Yields (.pktChunk len) s none [0] (26 * n) fun t => ResIs t 0 n
        ∧ ∀ k < n,
          (t.ob (26 * k + 25)).toNat = (if k + 1 < n then 4 * k else 128 + 4 * (L - 25 * (n - 1)))
          ∧ ∀ b < 25, t.ob (26 * k + b) = if 25 * k + b < L then s.ib (25 * k + b) else 0)
    ∧ (L = 0 → OnlyRaises (.pktChunk len) s (.invalidInput .badLength))
    ∧ (825 < L → OnlyRaises (.pktChunk len) s (.invalidInput .tooLong))

/-- 48 R291, R294, R295, R296: PKT_RESET and PKT_FLUSH empty the packet reassembler, the flush raising MISSING_END when a
packet was in progress; PKT_STAT reads 0 afterwards (after a flush, where the reassembler was active or EXP was 0: the
invariant). PKT_ACCEPT of a chunk that is not the last: a repeat of the last one is ignored, or raises DUP_MISMATCH when
its data differs; the next one is stored; a chunk 0 restarts; any other raises GAP or OUT_OF_ORDER. Of the last chunk: a
byte count of 0 or above 25 raises BAD_COUNT, a packet below 3 bytes SHORT, a wrong CRC CRC_MISMATCH; otherwise the
packet completes. Every error, and every last chunk, drops the packet in progress. -/
def Obligations.PacketReassemblerCommands : Prop :=
  (∀ s : State, Gives .pktReset s none [] 0 fun t => t.lich = s.lich ∧ t.text = s.text ∧ t.pkt.active = false
    ∧ t.pkt.exp = 0 ∧ t.pkt.stat = 0)
  ∧ (∀ s : State, Gives .pktFlush s (if s.pkt.active then some (.reassembly .missingEnd) else none) [] 0 fun t =>
      t.lich = s.lich ∧ t.text = s.text
      ∧ t.pkt = (if s.pkt.active then { s.pkt with active := false, exp := 0 } else s.pkt)
      ∧ (s.pkt.active = true ∨ s.pkt.exp = 0 → t.pkt.stat = 0))
  ∧ ∀ s : State,
    let p := s.pkt
    let c := (s.ib 25).toNat / 4 % 32
    let data := s.ibytes 0 25
    let others : State → Prop := fun t => t.lich = s.lich ∧ t.text = s.text
    let fails : Err → Prop := fun e => Gives .pktAccept s (some e) [] 0 fun t =>
      others t ∧ t.pkt = { p with active := false, exp := 0 }
    let stores : Nat → Prop := fun action => Gives .pktAccept s none [0, 3] 0 fun t =>
      others t ∧ ResIs t 0 action ∧ ResIs t 3 (c + 1) ∧ t.pkt.active = true ∧ t.pkt.exp.toNat = c + 1
      ∧ ∀ k, t.pkt.byte k = if 25 * c ≤ k ∧ k < 25 * c + 25 then s.ib (k - 25 * c) else p.byte k
    let Q := p.bytes 0 (25 * p.exp.toNat) ++ s.ibytes 0 c
    if (s.ib 25).toNat < 128 then
      (if p.active = true ∧ c + 1 = p.exp.toNat then
        (if data = p.bytes (25 * c) (25 * c + 25) then
          Yields .pktAccept s none [0, 3] 0 fun t => ResIs t 0 1 ∧ ResIs t 3 p.exp.toNat
        else fails (.reassembly .dupMismatch))
      else if c = p.exp.toNat then stores 0
      else if c = 0 then stores 3
      else if p.exp.toNat < c then fails (.reassembly .gap)
      else fails (.reassembly .outOfOrder))
    else if c = 0 ∨ 25 < c then fails (.reassembly .badCount)
    else if Q.length < 3 then fails (.reassembly .short)
    else if (crc16 (slice Q 0 (Q.length - 2))).toNat ≠ beNat (slice Q (Q.length - 2) Q.length) then fails .crcMismatch
    else Gives .pktAccept s none [0, 1, 2, 3] Q.length fun t => others t
      ∧ t.pkt = { p with active := false, exp := 0 } ∧ ObHolds t 0 Q ∧ ResIs t 0 2 ∧ ResIs t 1 (Q.getD 0 0).toNat
      ∧ ResIs t 2 (Q.length - 3) ∧ ResIs t 3 0

/-- A packet that PKT_BUILD formed, cut by PKT_CHUNK and fed chunk by chunk in order to an idle reassembler, comes back
whole at the last chunk, with its protocol id and payload length; every chunk before it is stored (48 R289 to R295;
pyM17 §8). -/
def Obligations.PacketRoundTrip : Prop :=
  ∀ (s t u v : State) (len len' : BitVec 16) (before after : Nat → State),
    len.toNat ≤ 822 → (s.argReg 0).toNat < 256 → exec (.pktBuild len) s = .next t →
    len'.toNat = len.toNat + 3 → (∀ k < len'.toNat, u.ib k = t.ob k) → exec (.pktChunk len') u = .next v →
    let n := (len'.toNat + 24) / 25
    (before 0).pkt.active = false → (before 0).pkt.exp = 0 →
    (∀ j < n, ∀ k < 26, (before j).ib k = v.ob (26 * j + k)) →
    (∀ j < n, exec .pktAccept (before j) = .next (after j)) →
    (∀ j, j + 1 < n → (before (j + 1)).pkt = (after j).pkt) →
    (∀ j, j + 1 < n → (after j).error = none ∧ ResIs (after j) 0 0)
    ∧ (after (n - 1)).error = none ∧ ResIs (after (n - 1)) 0 2 ∧ ResIs (after (n - 1)) 1 (s.argReg 0).toNat
    ∧ ResIs (after (n - 1)) 2 len.toNat ∧ ∀ k < len.toNat, (after (n - 1)).ob (1 + k) = s.ib k

/-- 48 R297, R298, R299: IP_BUILD writes the 54 bytes of the frame and its CRC to RES0, and raises FIELD_RANGE when ARG0
exceeds 16 bits. IP_PARSE raises BAD_MAGIC, with nothing written, for a wrong magic; otherwise it writes the LSF with a
fresh CRC, the payload and RES0..RES5, and then raises CRC_MISMATCH, or UNSUPPORTED_VERSION. What IP_BUILD wrote parses
back when its version is enabled (pyM17 §8 property 9). -/
def Obligations.IpBuildAndParse : Prop :=
  (∀ s : State,
     ((s.argReg 0).toNat < 2 ^ 16 →
       let body := beBytes 2 (s.argReg 0).toNat ++ s.ibytes 0 46
       Yields .ipBuild s none [0] 54 fun t =>
         ObHolds t 0 ([0x4D, 0x31, 0x37, 0x20] ++ body ++ beBytes 2 (crc16 body).toNat) ∧ ResIs t 0 (crc16 body).toNat)
     ∧ (2 ^ 16 ≤ (s.argReg 0).toNat → OnlyRaises .ipBuild s (.invalidInput .fieldRange))
     ∧ (s.ibytes 0 4 ≠ [0x4D, 0x31, 0x37, 0x20] → OnlyRaises .ipParse s .badMagic)
     ∧ (s.ibytes 0 4 = [0x4D, 0x31, 0x37, 0x20] →
       let ty := beNat (s.ibytes 18 20)
       let c := (crc16 (s.ibytes 6 34)).toNat
       let f := (crc16 (s.ibytes 4 52)).toNat
       let version := if versionCode ty = 0 then (if s.v2En then none else some (.unsupportedVersion .v2))
         else (if s.v3En then none else some (.unsupportedVersion .v3))
       Yields .ipParse s (if f ≠ beNat (s.ibytes 52 54) then some .crcMismatch else version) [0, 1, 2, 3, 4, 5] 48 fun t =>
         ObHolds t 0 (s.ibytes 6 34) ∧ ObHolds t 28 (beBytes 2 c) ∧ ObHolds t 30 (s.ibytes 34 52)
         ∧ ResIs t 0 (beNat (s.ibytes 4 6)) ∧ ResIs t 1 ty ∧ ResIs t 2 (versionCode ty) ∧ ResIs t 3 c
         ∧ ResIs t 4 (beNat (s.ibytes 34 36)) ∧ ResIs t 5 f))
  ∧ (∀ s t s' : State, (s.argReg 0).toNat < 2 ^ 16 → exec .ipBuild s = .next t → (∀ k < 54, s'.ib k = t.ob k) →
     (versionCode (beNat (s.ibytes 12 14)) = 0 → s'.v2En = true) →
     (versionCode (beNat (s.ibytes 12 14)) = 1 → s'.v3En = true) →
     Yields .ipParse s' none [0, 1, 2, 3, 4, 5] 48 fun t' => ResIs t' 0 (s.argReg 0).toNat
       ∧ ObHolds t' 0 (s.ibytes 0 28) ∧ ObHolds t' 30 (s.ibytes 28 46) ∧ ResIs t' 4 (beNat (s.ibytes 28 30)))

/-! ## Pipelines (49_pipeline_bert.md) -/

/-- Bit 16+i of the frame in OB[0..48) is coded bit π(i), whitened; the first two bytes are the sync word (49 R320,
R321, 46 R230, R232). -/
def FrameCarries (t : State) (sync : Nat) (c : Bits) : Prop :=
  ObHolds t 0 (beBytes 2 sync)
  ∧ ∀ i < 368, t.obBit (16 + i)
      = (c.getD ((45 * i + 92 * i ^ 2) % 368) false ^^ (randSeq.getD (i / 8) 0).getLsbD (7 - i % 8))

/-- 49 R321, R323, R325, R327: LSF_TX, STR_TX and PKT_TX write a 48-byte frame: the sync word, then the 368 coded bits
interleaved and whitened: the punctured code of the LSF with its CRC; the Golay-coded LICH unit before the punctured
code of the 18-byte payload; the punctured code of the first 206 bits of the chunk. -/
def Obligations.TransmitCommands : Prop :=
  ∀ s : State,
    (let c := (crc16 (s.ibytes 0 28)).toNat
     let coded := puncture (schedMask hw 1) (conv (bits (s.ibytes 0 28 ++ beBytes 2 c)))
     coded.length = 368 ∧ Yields .lsfTx s none [0] 48 fun t => FrameCarries t 0x55F7 coded ∧ ResIs t 0 c)
    ∧ (let lich := lichEncode hw (BitVec.ofNat 48 (beNat (s.ibytes 0 6)))
       let coded := lich ++ puncture (schedMask hw 2) (conv (bits (s.ibytes 6 24)))
       lich.length = 96 ∧ coded.length = 368 ∧ Yields .strTx s none [] 48 fun t => FrameCarries t 0xFF5D coded)
    ∧ (let coded := puncture (schedMask hw 3) (conv ((List.range 206).map s.ibBit))
       coded.length = 368 ∧ Yields .pktTx s none [] 48 fun t => FrameCarries t 0x75FF coded)

/-- 49 R322, R324, R328: LSF_RX and PKT_RX decode the soft frame IB[0..384), whose first 16 positions they ignore. With X
the dewhitened, deinterleaved soft bits, LSF_RX writes the decoded LSF, its TYPE, version, META tag, the path metric and
the recomputed CRC, and then the LSF check decides the error; PKT_RX writes the chunk, the path metric, EOF and the
counter, and never fails. -/
def Obligations.ReceiveLsfAndPacketCommands : Prop :=
  ∀ s : State,
    let rb : Nat → Bool := fun i => (randSeq.getD (i / 8) 0).getLsbD (7 - i % 8)
    let X : Bytes := (List.range 368).map fun i =>
      let j := (45 * i + 92 * i ^ 2) % 368
      if rb j then BitVec.ofNat 8 (255 - (s.ib (16 + j)).toNat) else s.ib (16 + j)
    (let r := viterbi (schedMask hw 1) 240 X
     let L := pack r.1
     let ty := beNat (slice L 12 14)
     L.length = 30 ∧ Yields .lsfRx s (lsfVerdict s.v2En s.v3En L) [0, 1, 2, 3, 4] 30 fun t => ObHolds t 0 L
      ∧ ResIs t 0 ty ∧ ResIs t 1 (versionCode ty) ∧ ResIs t 2 (metaCode ty) ∧ ResIs t 3 r.2
      ∧ ResIs t 4 (crc16 (slice L 0 28)).toNat)
    ∧ (let r := viterbi (schedMask hw 3) 206 X
       let B := pack r.1
       B.length = 26 ∧ Yields .pktRx s none [0, 1, 2] 26 fun t => ObHolds t 0 B ∧ ResIs t 0 r.2
        ∧ ResIs t 1 ((B.getD 25 0).toNat / 128) ∧ ResIs t 2 ((B.getD 25 0).toNat / 4 % 32) ∧ (B.getD 25 0).toNat % 4 = 0)

/-- 49 R322, R326: STR_RX decodes the soft frame IB[0..384): the LICH unit and the payload to OB[0..24), FN, LICH metric,
bad flag, path metric, EOT and LICH counter to RES0..RES5. With FEED = 1 the chunk is offered to the collector under the
stream id of ARG0, the action in RES6, and a rejected chunk raises nothing; with FEED = 0 the collector and RES6 stay. An
ARG0 above 17 bits raises FIELD_RANGE. -/
def Obligations.ReceiveStreamCommand : Prop :=
  ∀ s : State,
    let rb : Nat → Bool := fun i => (randSeq.getD (i / 8) 0).getLsbD (7 - i % 8)
    let X : Bytes := (List.range 368).map fun i =>
      let j := (45 * i + 92 * i ^ 2) % 368
      if rb j then BitVec.ofNat 8 (255 - (s.ib (16 + j)).toNat) else s.ib (16 + j)
    let d := lichSoftDecode hw (slice X 0 96)
    let r := viterbi (schedMask hw 2) 144 (slice X 96 368)
    let P := pack r.1
    let sid : BitVec 16 := BitVec.ofNat 16 (s.argReg 0).toNat
    let ctr := d.unit.toNat / 2 ^ 45
    let wrote : State → Prop := fun t => t.pkt = s.pkt ∧ t.text = s.text ∧ ObHolds t 0 (beBytes 6 d.unit.toNat)
      ∧ ObHolds t 6 P ∧ ResIs t 0 (beNat (slice P 0 2)) ∧ ResIs t 1 d.metric ∧ ResIs t 2 (if d.bad then 1 else 0)
      ∧ ResIs t 3 r.2 ∧ ResIs t 4 (beNat (slice P 0 2) / 2 ^ 15) ∧ ResIs t 5 ctr
    P.length = 18
    ∧ ((s.argReg 0).toNat < 2 ^ 16 → Gives .strRx s none [0, 1, 2, 3, 4, 5] 24 fun t => wrote t ∧ t.lich = s.lich)
    ∧ (2 ^ 16 ≤ (s.argReg 0).toNat → (s.argReg 0).toNat < 2 ^ 17 →
        Gives .strRx s none [0, 1, 2, 3, 4, 5, 6] 24 fun t => wrote t
          ∧ (d.bad = true → ResIs t 6 4 ∧ t.lich = s.lich)
          ∧ (d.bad = false → ctr ≤ 5 ∧ ∃ action ≤ 3, ResIs t 6 action
              ∧ LichOffered s.lich t.lich (BitVec.ofNat 40 (d.unit.toNat / 2 ^ 5)) (Fin.ofNat 6 ctr)
                  (BitVec.ofNat 32 d.metric) sid action))
    ∧ (2 ^ 17 ≤ (s.argReg 0).toNat → OnlyRaises .strRx s (.invalidInput .fieldRange))

/-- A noise-free frame is received as it was sent, whatever the 16 sync positions hold (49 R322 to R328, 45 R207): LSF_RX
of the soft image of LSF_TX gives the LSF with its CRC, metric 0 and no CRC_MISMATCH; STR_RX of STR_TX the LICH unit and
the payload, both metrics 0; PKT_RX of PKT_TX the chunk, bits 1:0 of its last byte cleared, metric 0. -/
def Obligations.PipelineRoundTrip : Prop :=
  (∀ s t s' : State, exec .lsfTx s = .next t → SoftImage t s' 16 384 →
    Yields .lsfRx s'
      (if versionCode (beNat (s.ibytes 12 14)) = 0 then (if s'.v2En then none else some (.unsupportedVersion .v2))
        else (if s'.v3En then none else some (.unsupportedVersion .v3))) [0, 1, 2, 3, 4] 30 fun t' =>
      ObHolds t' 0 (s.ibytes 0 28) ∧ ObHolds t' 28 (beBytes 2 (crc16 (s.ibytes 0 28)).toNat) ∧ ResIs t' 3 0)
  ∧ (∀ s t s' : State, exec .strTx s = .next t → SoftImage t s' 16 384 → (s'.argReg 0).toNat < 2 ^ 16 →
    Yields .strRx s' none [0, 1, 2, 3, 4, 5] 24 fun t' => ObHolds t' 0 (s.ibytes 0 24)
      ∧ ResIs t' 0 (beNat (s.ibytes 6 8)) ∧ ResIs t' 1 0 ∧ ResIs t' 3 0
      ∧ ResIs t' 2 (if 5 < (s.ib 0).toNat / 32 then 1 else 0) ∧ ResIs t' 4 ((s.ib 6).toNat / 128)
      ∧ ResIs t' 5 ((s.ib 0).toNat / 32))
  ∧ (∀ s t s' : State, exec .pktTx s = .next t → SoftImage t s' 16 384 →
    Yields .pktRx s' none [0, 1, 2] 26 fun t' => ObHolds t' 0 (s.ibytes 0 25)
      ∧ (t'.ob 25).toNat = (s.ib 25).toNat / 4 * 4 ∧ ResIs t' 0 0)

/-- 49 R329, R330, R331: on this hardware BERT_PUNCT keeps 303 of 402 bits, so BERT_TX and BERT_RX raise FIELD_RANGE for
a seed above 9 bits and BAD_LENGTH otherwise, with nothing written. Under parameters whose BERT mask keeps 368 bits the
same rules send and receive the 197 PRBS bits, BERT_RX counting the bit errors. -/
def Obligations.BertCommands : Prop :=
  (∀ s : State,
    ((s.argReg 0).toNat < 512 → OnlyRaises .bertTx s (.invalidInput .badLength)
      ∧ OnlyRaises .bertRx s (.invalidInput .badLength))
    ∧ (512 ≤ (s.argReg 0).toNat → OnlyRaises .bertTx s (.invalidInput .fieldRange)
      ∧ OnlyRaises .bertRx s (.invalidInput .fieldRange)))
  ∧ kept (bertMask hw) 402 = 303
  ∧ ∀ (mask : Bits) (s : State), kept mask 402 = 368 → (s.argReg 0).toNat < 512 →
    let P : Params := { hw with bertPunct := .other mask }
    let sent := (prbs P 197 (BitVec.ofNat 9 (s.argReg 0).toNat))
    let r := viterbi mask 197 (rxFront P (s.ibytes 0 384))
    (∃ t, (bertTxRun P s).finish = .next t ∧ Completed s t none ∧ CollectorsKept s t ∧ ResKept s t [0]
      ∧ BytesKept s t 48 ∧ FrameCarries t 0xDF55 (puncture mask (conv sent.1)) ∧ ResIs t 0 sent.2.toNat)
    ∧ ∃ t, (bertRxRun P s).finish = .next t ∧ Completed s t none ∧ CollectorsKept s t ∧ ResKept s t [0, 1, 2]
      ∧ BytesKept s t 25 ∧ ObHolds t 0 (pack r.1)
      ∧ ResIs t 0 ((List.range 197).countP fun i => r.1.getD i false != sent.1.getD i false) ∧ ResIs t 1 197
      ∧ ResIs t 2 r.2
end

