-- ==== Sys2Proof/Laws/Bits.lean ====
section
/-! SUPPORT. Bytes, bit strings and big-endian numbers (Machine/Bits.lean): lengths, positions, and the two round
trips. -/

namespace Sys2Proof.Machine

/-! ## Big-endian numbers -/

@[simp] theorem beBytes_length (n v : Nat) : (beBytes n v).length = n := by
  induction n with
  | zero => rfl
  | succ n ih => simp [beBytes, ih]

theorem beNat_foldl (B : Bytes) (a : Nat) :
    B.foldl (fun n b => 256 * n + b.toNat) a = a * 256 ^ B.length + beNat B := by
  induction B generalizing a with
  | nil => simp [beNat]
  | cons b B ih =>
    simp only [List.foldl_cons, List.length_cons, beNat]
    rw [ih (256 * a + b.toNat), ih (256 * 0 + b.toNat)]
    ring

@[simp] theorem beNat_nil : beNat [] = 0 := rfl

theorem beNat_cons (b : Byte) (B : Bytes) : beNat (b :: B) = b.toNat * 256 ^ B.length + beNat B := by
  rw [beNat, List.foldl_cons, beNat_foldl]
  simp

theorem beNat_append (A B : Bytes) : beNat (A ++ B) = beNat A * 256 ^ B.length + beNat B := by
  rw [beNat, List.foldl_append, beNat_foldl]
  rfl

theorem beNat_lt (B : Bytes) : beNat B < 256 ^ B.length := by
  induction B with
  | nil => simp
  | cons b B ih =>
    rw [beNat_cons, List.length_cons, pow_succ]
    have := b.isLt
    have h : b.toNat * 256 ^ B.length ≤ 255 * 256 ^ B.length := Nat.mul_le_mul_right _ (by omega)
    omega

/-- Reading back what `beBytes` wrote gives the number modulo 256^n (00_scope.md R9). -/
@[simp] theorem beNat_beBytes (n v : Nat) : beNat (beBytes n v) = v % 256 ^ n := by
  induction n generalizing v with
  | zero => simp [beBytes, Nat.mod_one]
  | succ n ih =>
    rw [beBytes, beNat_cons, ih, beBytes_length, BitVec.toNat_ofNat, show (2 : Nat) ^ 8 = 256 from rfl,
      pow_succ 256 n, Nat.mod_mul, Nat.mul_comm, Nat.add_comm]

/-- The bytes of the number of a byte sequence are the sequence (00_scope.md R9). -/
theorem beBytes_beNat (B : Bytes) : beBytes B.length (beNat B) = B := by
  induction B with
  | nil => rfl
  | cons b B ih =>
    have hlt := beNat_lt B
    have hpos : 0 < 256 ^ B.length := Nat.pow_pos (by omega)
    rw [List.length_cons, beBytes, beNat_cons]
    congr 1
    · rw [Nat.add_comm, Nat.add_mul_div_right _ _ hpos, Nat.div_eq_of_lt hlt, Nat.zero_add]
      exact BitVec.ofNat_toNat 8 b ▸ by simp
    · conv_rhs => rw [← ih]
      generalize B.length = n at *
      generalize beNat B = m at *
      generalize b.toNat = c
      clear ih hlt hpos
      induction n generalizing c with
      | zero => rfl
      | succ n ih =>
        simp only [beBytes]
        have hpos : 0 < 256 ^ n := Nat.pow_pos (by omega)
        congr 1
        · rw [pow_succ, show c * (256 ^ n * 256) + m = m + (c * 256) * 256 ^ n by ring,
            Nat.add_mul_div_right _ _ hpos]
          apply BitVec.eq_of_toNat_eq
          simp
        · rw [show c * 256 ^ (n + 1) + m = (c * 256) * 256 ^ n + m by ring]
          exact ih (c * 256)

/-- The big-endian bytes depend on the number modulo 256^n only. -/
theorem beBytes_mod (n v : Nat) : beBytes n (v % 256 ^ n) = beBytes n v := by
  have h1 := beBytes_beNat (beBytes n v)
  rwa [beBytes_length, beNat_beBytes] at h1

/-! ## Slices -/

@[simp] theorem slice_length (B : Bytes) (i j : Nat) : (slice B i j).length = min (j - i) (B.length - i) := by
  simp [slice]

theorem slice_getElem? (B : Bytes) (i j k : Nat) : (slice B i j)[k]? = if k < j - i then B[i + k]? else none := by
  simp only [slice, List.getElem?_take, List.getElem?_drop]

/-! ## Bit strings -/

@[simp] theorem bits_nil : bits [] = [] := rfl

theorem bits_cons (b : Byte) (B : Bytes) :
    bits (b :: B) = (List.range 8).map (fun j => b.getLsbD (7 - j)) ++ bits B := rfl

theorem bits_append (A B : Bytes) : bits (A ++ B) = bits A ++ bits B := by simp [bits]

@[simp] theorem bits_length (B : Bytes) : (bits B).length = 8 * B.length := by
  induction B with
  | nil => rfl
  | cons b B ih =>
    rw [bits_cons, List.length_append, ih]
    simp
    omega

/-- Bit 8k + j of a byte sequence is bit 7 - j of byte k (00_scope.md R8). -/
theorem bits_getD (B : Bytes) (i : Nat) : (bits B).getD i false = (B.getD (i / 8) 0).getLsbD (7 - i % 8) := by
  induction B generalizing i with
  | nil => simp
  | cons b B ih =>
    rw [bits_cons]
    by_cases h : i < 8
    · rw [List.getD_append _ _ _ _ (by simpa using h), Nat.div_eq_of_lt h, Nat.mod_eq_of_lt h]
      simp [List.getD_eq_getElem?_getD, h]
    · rw [List.getD_append_right _ _ _ _ (by simp; omega)]
      have : i / 8 = (i - 8) / 8 + 1 := by omega
      simp only [List.length_map, List.length_range, ih, this, List.getD_cons_succ]
      congr 1
      omega

@[simp] theorem pack_length (s : Bits) : (pack s).length = (s.length + 7) / 8 := by simp [pack]

theorem bitsToNat_foldl (s : Bits) (a : Nat) :
    s.foldl (fun n b => 2 * n + b.toNat) a = a * 2 ^ s.length + bitsToNat s := by
  induction s generalizing a with
  | nil => simp [bitsToNat]
  | cons b s ih =>
    simp only [List.foldl_cons, List.length_cons, bitsToNat]
    rw [ih (2 * a + b.toNat), ih (2 * 0 + b.toNat)]
    ring

theorem bitsToNat_cons (b : Bool) (s : Bits) : bitsToNat (b :: s) = b.toNat * 2 ^ s.length + bitsToNat s := by
  rw [bitsToNat, List.foldl_cons, bitsToNat_foldl]
  simp

theorem bitsToNat_lt (s : Bits) : bitsToNat s < 2 ^ s.length := by
  induction s with
  | nil => simp [bitsToNat]
  | cons b s ih =>
    rw [bitsToNat_cons, List.length_cons, pow_succ]
    cases b <;> simp <;> omega

/-- Digit k of a bit string read as a number, the first bit the most significant. -/
theorem bitsToNat_testBit (s : Bits) (k : Nat) (h : k < s.length) :
    (bitsToNat s).testBit (s.length - 1 - k) = s.getD k false := by
  induction s generalizing k with
  | nil => simp at h
  | cons b s ih =>
    have hlt := bitsToNat_lt s
    rw [bitsToNat_cons, Nat.mul_comm, List.length_cons]
    rw [List.length_cons] at h
    cases k with
    | zero =>
      rw [Nat.testBit_two_pow_mul_add _ hlt, if_neg (by omega)]
      cases b <;> simp
    | succ k =>
      rw [Nat.testBit_two_pow_mul_add _ hlt, if_pos (by omega), List.getD_cons_succ, ← ih k (by omega)]
      congr 1
      omega

/-- Bit 7 - j of byte k of a packed bit string is its bit 8k + j, and 0 past its end (00_scope.md R8). -/
theorem pack_bit (s : Bits) (i : Nat) (h : i < 8 * ((s.length + 7) / 8)) :
    ((pack s).getD (i / 8) 0).getLsbD (7 - i % 8) = s.getD i false := by
  have hk : i / 8 < (s.length + 7) / 8 := by omega
  have hm : i % 8 < 8 := Nat.mod_lt _ (by omega)
  rw [pack, List.getD_eq_getElem?_getD, List.getElem?_map, List.getElem?_range hk]
  simp only [Option.map_some, Option.getD_some, BitVec.getLsbD_ofNat]
  have := bitsToNat_testBit ((List.range 8).map fun j => s.getD (8 * (i / 8) + j) false) (i % 8) (by simpa using hm)
  simp only [List.length_map, List.length_range] at this
  rw [show 7 - i % 8 = 8 - 1 - i % 8 by omega, this, List.getD_eq_getElem?_getD, List.getElem?_map,
    List.getElem?_range hm]
  simp only [Option.map_some, Option.getD_some]
  rw [show 8 * (i / 8) + i % 8 = i by omega]
  simp
  omega

/-- Packing the bits of a byte sequence gives it back (00_scope.md R8). -/
theorem pack_bits (B : Bytes) : pack (bits B) = B := by
  apply List.ext_getElem?
  intro k
  by_cases h : k < B.length
  · have hl : k < (pack (bits B)).length := by simp; omega
    rw [List.getElem?_eq_getElem hl, List.getElem?_eq_getElem h, Option.some_inj]
    apply BitVec.eq_of_getLsbD_eq
    intro j hj
    have e : k = (8 * k + (7 - j)) / 8 := by omega
    have e2 : j = 7 - (8 * k + (7 - j)) % 8 := by omega
    have h1 := pack_bit (bits B) (8 * k + (7 - j)) (by simp; omega)
    rw [bits_getD, ← e, ← e2] at h1
    rw [List.getD_eq_getElem?_getD, List.getD_eq_getElem?_getD, List.getElem?_eq_getElem hl,
      List.getElem?_eq_getElem h] at h1
    simpa using h1
  · rw [List.getElem?_eq_none (by simp; omega), List.getElem?_eq_none (by omega)]

/-- The bits of a packed bit string are the string and zeros to a whole byte (00_scope.md R8). -/
theorem bits_pack_getD (s : Bits) (i : Nat) (h : i < 8 * ((s.length + 7) / 8)) :
    (bits (pack s)).getD i false = s.getD i false := by rw [bits_getD, pack_bit s i h]

/-- Fields written one above the other, as numbers: the layout of a register, from the top field down. -/
theorem toNat_fieldAbove {m n : Nat} (a : BitVec m) (b : BitVec n) : (a ++ b).toNat = a.toNat * 2 ^ n + b.toNat := by
  rw [BitVec.toNat_append, ← Nat.shiftLeft_add_eq_or_of_lt b.isLt, Nat.shiftLeft_eq]

end Sys2Proof.Machine
end

