-- ==== Sys2Proof/Laws/Memory.lean ====
section
/-! SUPPORT. What the memory operations do: read after write, and that the canonical form and the bounds are kept
(Machine/Ops.lean). -/

namespace Sys2Proof.Machine

@[simp] theorem Memory.find_nil (a : Nat) : Memory.find [] a = none := rfl

/-- Reading after a write: the byte written at its address, the old byte elsewhere. -/
theorem Memory.find_write (m : Memory) (a : Nat) (v : Byte) (x : Nat) :
    (m.write a v).find x = if x = a then some v else m.find x := by
  induction m with
  | nil => simp [Memory.write, Memory.find]
  | cons c m ih =>
    obtain ⟨b, w⟩ := c
    simp only [Memory.write]
    split
    · simp only [Memory.find]
    · split
      · subst_vars
        simp only [Memory.find]
        split <;> rfl
      · simp only [Memory.find, ih]
        split <;> split <;> simp_all

/-- Reading after a byte sequence was written from `a` on. -/
theorem Memory.find_writeBytes (m : Memory) (a : Nat) (B : Bytes) (x : Nat) :
    (m.writeBytes a B).find x = if a ≤ x ∧ x < a + B.length then B[x - a]? else m.find x := by
  induction B generalizing m a with
  | nil =>
    simp only [Memory.writeBytes, List.length_nil]
    rw [if_neg (by omega)]
  | cons v B ih =>
    simp only [Memory.writeBytes, ih, Memory.find_write, List.length_cons]
    by_cases h : x = a
    · subst h
      rw [if_neg (by omega), if_pos rfl, if_pos (by omega)]
      simp
    · by_cases h2 : a + 1 ≤ x ∧ x < a + 1 + B.length
      · rw [if_pos h2, if_pos (by omega)]
        obtain ⟨k, hk⟩ : ∃ k, x = a + 1 + k := ⟨x - (a + 1), by omega⟩
        subst hk
        rw [show a + 1 + k - (a + 1) = k by omega, show a + 1 + k - a = k + 1 by omega]
        simp
      · rw [if_neg h2, if_neg h, if_neg (by omega)]

/-- A write adds no address but its own. -/
theorem Memory.mem_write {m : Memory} {a : Nat} {v : Byte} {c : Host.Cell} (h : c ∈ m.write a v) :
    c = (a, v) ∨ c ∈ m := by
  induction m with
  | nil => simpa [Memory.write] using h
  | cons d m ih =>
    obtain ⟨b, w⟩ := d
    simp only [Memory.write] at h
    split at h
    · simpa using h
    · split at h
      · rcases List.mem_cons.1 h with h | h
        · exact .inl h
        · exact .inr (List.mem_cons_of_mem _ h)
      · rcases List.mem_cons.1 h with h | h
        · exact .inr (h ▸ List.mem_cons_self)
        · rcases ih h with h | h
          · exact .inl h
          · exact .inr (List.mem_cons_of_mem _ h)

/-- A write keeps the canonical form (20_memory.md; log 2). -/
theorem Memory.wf_write {m : Memory} (h : m.wf) (a : Nat) (v : Byte) : (m.write a v).wf := by
  induction m with
  | nil => exact List.pairwise_singleton _ _
  | cons d m ih =>
    obtain ⟨b, w⟩ := d
    have hc := List.pairwise_cons.1 h
    simp only [Memory.write]
    split
    · rename_i hab
      refine List.pairwise_cons.2 ⟨fun c hcm => ?_, h⟩
      rcases List.mem_cons.1 hcm with rfl | hcm
      · exact hab
      · exact Nat.lt_trans hab (hc.1 c hcm)
    · split
      · subst_vars
        exact List.pairwise_cons.2 ⟨hc.1, hc.2⟩
      · refine List.pairwise_cons.2 ⟨fun c hcm => ?_, ih hc.2⟩
        rcases Memory.mem_write hcm with rfl | hcm
        · show b < a
          omega
        · exact hc.1 c hcm

/-- Writing a byte sequence keeps the canonical form. -/
theorem Memory.wf_writeBytes {m : Memory} (h : m.wf) (a : Nat) (B : Bytes) : (m.writeBytes a B).wf := by
  induction B generalizing m a with
  | nil => exact h
  | cons v B ih => exact ih (Memory.wf_write h a v) (a + 1)

/-- A write inside the bounds keeps every entry inside them. -/
theorem Memory.within_write {m : Memory} {lo hi : Nat} (h : m.within lo hi) {a : Nat} (v : Byte)
    (ha : lo ≤ a ∧ a < hi) : (m.write a v).within lo hi := by
  intro c hc
  rcases Memory.mem_write hc with rfl | hc
  · exact ha
  · exact h c hc

/-- Writing a byte sequence inside the bounds keeps every entry inside them. -/
theorem Memory.within_writeBytes {m : Memory} {lo hi : Nat} (h : m.within lo hi) {a : Nat} {B : Bytes}
    (ha : lo ≤ a ∧ a + B.length ≤ hi) : (m.writeBytes a B).within lo hi := by
  induction B generalizing m a with
  | nil => exact h
  | cons v B ih =>
    simp only [List.length_cons] at ha
    exact ih (Memory.within_write h v (by omega)) (by omega)

/-- The empty memory is in canonical form. -/
theorem Memory.wf_nil : Memory.wf [] := List.Pairwise.nil

/-- The reset state's memory is in canonical form. -/
theorem State.reset_mem_wf : State.reset.mem.wf := List.Pairwise.nil

/-- What IBUF and OBUF hold after OB[i..) was written. -/
theorem State.byteAt_obWrite (s : State) (i : Nat) (B : Bytes) (a : Nat) :
    (s.obWrite i B).byteAt a
      = if obufBase + i ≤ a ∧ a < obufBase + i + B.length then B.getD (a - (obufBase + i)) 0 else s.byteAt a := by
  simp only [State.byteAt, State.obWrite, Memory.find_writeBytes]
  split
  · rename_i h
    rw [List.getElem?_eq_getElem (by omega), List.getD_eq_getElem?_getD, List.getElem?_eq_getElem (by omega)]
    rfl
  · rfl

/-- What IBUF and OBUF hold after the host wrote one byte of IBUF. -/
theorem State.byteAt_write (s : State) (b : Nat) (v : Byte) (a : Nat) :
    ({ s with mem := s.mem.write b v } : State).byteAt a = if a = b then v else s.byteAt a := by
  simp only [State.byteAt, Memory.find_write]
  split <;> rfl

end Sys2Proof.Machine
end

