-- ==== Sys2Proof/Laws/State.lean ====
section
/-! SUPPORT. One lemma per field per update of State, true by rfl, so that no later proof unfolds a record update; the
same for what is read through `resReg`, `argReg`, `byteAt`, `ib`, `ob` and the collectors' own updates. -/

namespace Sys2Proof.Machine.State

variable (s : State)

/-! ### setRes -/

@[simp] theorem setRes_arg (n : Fin 8) (v : Word) : (s.setRes n v).arg = s.arg := rfl
@[simp] theorem setRes_res (n : Fin 8) (v : Word) : (s.setRes n v).res = s.res.set n v := rfl
@[simp] theorem setRes_cmdcnt (n : Fin 8) (v : Word) : (s.setRes n v).cmdcnt = s.cmdcnt := rfl
@[simp] theorem setRes_ctrl (n : Fin 8) (v : Word) : (s.setRes n v).ctrl = s.ctrl := rfl
@[simp] theorem setRes_busy (n : Fin 8) (v : Word) : (s.setRes n v).busy = s.busy := rfl
@[simp] theorem setRes_done (n : Fin 8) (v : Word) : (s.setRes n v).done = s.done := rfl
@[simp] theorem setRes_viol (n : Fin 8) (v : Word) : (s.setRes n v).viol = s.viol := rfl
@[simp] theorem setRes_error (n : Fin 8) (v : Word) : (s.setRes n v).error = s.error := rfl
@[simp] theorem setRes_cmd (n : Fin 8) (v : Word) : (s.setRes n v).cmd = s.cmd := rfl
@[simp] theorem setRes_mem (n : Fin 8) (v : Word) : (s.setRes n v).mem = s.mem := rfl
@[simp] theorem setRes_lich (n : Fin 8) (v : Word) : (s.setRes n v).lich = s.lich := rfl
@[simp] theorem setRes_pkt (n : Fin 8) (v : Word) : (s.setRes n v).pkt = s.pkt := rfl
@[simp] theorem setRes_text (n : Fin 8) (v : Word) : (s.setRes n v).text = s.text := rfl
@[simp] theorem setRes_inReset (n : Fin 8) (v : Word) : (s.setRes n v).inReset = s.inReset := rfl
@[simp] theorem setRes_bufEpoch (n : Fin 8) (v : Word) : (s.setRes n v).bufEpoch = s.bufEpoch := rfl
@[simp] theorem setRes_freeReads (n : Fin 8) (v : Word) : (s.setRes n v).freeReads = s.freeReads := rfl
@[simp] theorem setRes_reply (n : Fin 8) (v : Word) : (s.setRes n v).reply = s.reply := rfl
@[simp] theorem setRes_inbox (n : Fin 8) (v : Word) : (s.setRes n v).inbox = s.inbox := rfl
@[simp] theorem setRes_latencies (n : Fin 8) (v : Word) : (s.setRes n v).latencies = s.latencies := rfl
@[simp] theorem setRes_countdown (n : Fin 8) (v : Word) : (s.setRes n v).countdown = s.countdown := rfl
@[simp] theorem setRes_argReg (n : Fin 8) (v : Word) (m : Fin 8) : (s.setRes n v).argReg m = s.argReg m := rfl
@[simp] theorem setRes_byteAt (n : Fin 8) (v : Word) (a : Nat) : (s.setRes n v).byteAt a = s.byteAt a := rfl
@[simp] theorem setRes_ib (n : Fin 8) (v : Word) (j : Nat) : (s.setRes n v).ib j = s.ib j := rfl
@[simp] theorem setRes_ob (n : Fin 8) (v : Word) (j : Nat) : (s.setRes n v).ob j = s.ob j := rfl

/-! ### setResNat -/

@[simp] theorem setResNat_arg (n : Fin 8) (v : Nat) : (s.setResNat n v).arg = s.arg := rfl
@[simp] theorem setResNat_res (n : Fin 8) (v : Nat) : (s.setResNat n v).res = s.res.set n (BitVec.ofNat 32 v) := rfl
@[simp] theorem setResNat_cmdcnt (n : Fin 8) (v : Nat) : (s.setResNat n v).cmdcnt = s.cmdcnt := rfl
@[simp] theorem setResNat_ctrl (n : Fin 8) (v : Nat) : (s.setResNat n v).ctrl = s.ctrl := rfl
@[simp] theorem setResNat_busy (n : Fin 8) (v : Nat) : (s.setResNat n v).busy = s.busy := rfl
@[simp] theorem setResNat_done (n : Fin 8) (v : Nat) : (s.setResNat n v).done = s.done := rfl
@[simp] theorem setResNat_viol (n : Fin 8) (v : Nat) : (s.setResNat n v).viol = s.viol := rfl
@[simp] theorem setResNat_error (n : Fin 8) (v : Nat) : (s.setResNat n v).error = s.error := rfl
@[simp] theorem setResNat_cmd (n : Fin 8) (v : Nat) : (s.setResNat n v).cmd = s.cmd := rfl
@[simp] theorem setResNat_mem (n : Fin 8) (v : Nat) : (s.setResNat n v).mem = s.mem := rfl
@[simp] theorem setResNat_lich (n : Fin 8) (v : Nat) : (s.setResNat n v).lich = s.lich := rfl
@[simp] theorem setResNat_pkt (n : Fin 8) (v : Nat) : (s.setResNat n v).pkt = s.pkt := rfl
@[simp] theorem setResNat_text (n : Fin 8) (v : Nat) : (s.setResNat n v).text = s.text := rfl
@[simp] theorem setResNat_inReset (n : Fin 8) (v : Nat) : (s.setResNat n v).inReset = s.inReset := rfl
@[simp] theorem setResNat_bufEpoch (n : Fin 8) (v : Nat) : (s.setResNat n v).bufEpoch = s.bufEpoch := rfl
@[simp] theorem setResNat_freeReads (n : Fin 8) (v : Nat) : (s.setResNat n v).freeReads = s.freeReads := rfl
@[simp] theorem setResNat_reply (n : Fin 8) (v : Nat) : (s.setResNat n v).reply = s.reply := rfl
@[simp] theorem setResNat_inbox (n : Fin 8) (v : Nat) : (s.setResNat n v).inbox = s.inbox := rfl
@[simp] theorem setResNat_latencies (n : Fin 8) (v : Nat) : (s.setResNat n v).latencies = s.latencies := rfl
@[simp] theorem setResNat_countdown (n : Fin 8) (v : Nat) : (s.setResNat n v).countdown = s.countdown := rfl
@[simp] theorem setResNat_argReg (n : Fin 8) (v : Nat) (m : Fin 8) : (s.setResNat n v).argReg m = s.argReg m := rfl
@[simp] theorem setResNat_byteAt (n : Fin 8) (v : Nat) (a : Nat) : (s.setResNat n v).byteAt a = s.byteAt a := rfl
@[simp] theorem setResNat_ib (n : Fin 8) (v : Nat) (j : Nat) : (s.setResNat n v).ib j = s.ib j := rfl
@[simp] theorem setResNat_ob (n : Fin 8) (v : Nat) (j : Nat) : (s.setResNat n v).ob j = s.ob j := rfl

/-! ### setResAddr -/

@[simp] theorem setResAddr_arg (lo hi : Fin 8) (n : Nat) : (s.setResAddr lo hi n).arg = s.arg := rfl
@[simp] theorem setResAddr_res (lo hi : Fin 8) (n : Nat) : (s.setResAddr lo hi n).res = (s.res.set lo (BitVec.ofNat 32 (n % 2 ^ 32))).set hi (BitVec.ofNat 32 (n / 2 ^ 32)) := rfl
@[simp] theorem setResAddr_cmdcnt (lo hi : Fin 8) (n : Nat) : (s.setResAddr lo hi n).cmdcnt = s.cmdcnt := rfl
@[simp] theorem setResAddr_ctrl (lo hi : Fin 8) (n : Nat) : (s.setResAddr lo hi n).ctrl = s.ctrl := rfl
@[simp] theorem setResAddr_busy (lo hi : Fin 8) (n : Nat) : (s.setResAddr lo hi n).busy = s.busy := rfl
@[simp] theorem setResAddr_done (lo hi : Fin 8) (n : Nat) : (s.setResAddr lo hi n).done = s.done := rfl
@[simp] theorem setResAddr_viol (lo hi : Fin 8) (n : Nat) : (s.setResAddr lo hi n).viol = s.viol := rfl
@[simp] theorem setResAddr_error (lo hi : Fin 8) (n : Nat) : (s.setResAddr lo hi n).error = s.error := rfl
@[simp] theorem setResAddr_cmd (lo hi : Fin 8) (n : Nat) : (s.setResAddr lo hi n).cmd = s.cmd := rfl
@[simp] theorem setResAddr_mem (lo hi : Fin 8) (n : Nat) : (s.setResAddr lo hi n).mem = s.mem := rfl
@[simp] theorem setResAddr_lich (lo hi : Fin 8) (n : Nat) : (s.setResAddr lo hi n).lich = s.lich := rfl
@[simp] theorem setResAddr_pkt (lo hi : Fin 8) (n : Nat) : (s.setResAddr lo hi n).pkt = s.pkt := rfl
@[simp] theorem setResAddr_text (lo hi : Fin 8) (n : Nat) : (s.setResAddr lo hi n).text = s.text := rfl
@[simp] theorem setResAddr_inReset (lo hi : Fin 8) (n : Nat) : (s.setResAddr lo hi n).inReset = s.inReset := rfl
@[simp] theorem setResAddr_bufEpoch (lo hi : Fin 8) (n : Nat) : (s.setResAddr lo hi n).bufEpoch = s.bufEpoch := rfl
@[simp] theorem setResAddr_freeReads (lo hi : Fin 8) (n : Nat) : (s.setResAddr lo hi n).freeReads = s.freeReads := rfl
@[simp] theorem setResAddr_reply (lo hi : Fin 8) (n : Nat) : (s.setResAddr lo hi n).reply = s.reply := rfl
@[simp] theorem setResAddr_inbox (lo hi : Fin 8) (n : Nat) : (s.setResAddr lo hi n).inbox = s.inbox := rfl
@[simp] theorem setResAddr_latencies (lo hi : Fin 8) (n : Nat) : (s.setResAddr lo hi n).latencies = s.latencies := rfl
@[simp] theorem setResAddr_countdown (lo hi : Fin 8) (n : Nat) : (s.setResAddr lo hi n).countdown = s.countdown := rfl
@[simp] theorem setResAddr_argReg (lo hi : Fin 8) (n : Nat) (m : Fin 8) : (s.setResAddr lo hi n).argReg m = s.argReg m := rfl
@[simp] theorem setResAddr_byteAt (lo hi : Fin 8) (n : Nat) (a : Nat) : (s.setResAddr lo hi n).byteAt a = s.byteAt a := rfl
@[simp] theorem setResAddr_ib (lo hi : Fin 8) (n : Nat) (j : Nat) : (s.setResAddr lo hi n).ib j = s.ib j := rfl
@[simp] theorem setResAddr_ob (lo hi : Fin 8) (n : Nat) (j : Nat) : (s.setResAddr lo hi n).ob j = s.ob j := rfl

/-! ### setResBitmap -/

@[simp] theorem setResBitmap_arg (n : Fin 8) : (s.setResBitmap n).arg = s.arg := rfl
@[simp] theorem setResBitmap_res (n : Fin 8) : (s.setResBitmap n).res = s.res.set n (s.lich.bitmap.setWidth 32) := rfl
@[simp] theorem setResBitmap_cmdcnt (n : Fin 8) : (s.setResBitmap n).cmdcnt = s.cmdcnt := rfl
@[simp] theorem setResBitmap_ctrl (n : Fin 8) : (s.setResBitmap n).ctrl = s.ctrl := rfl
@[simp] theorem setResBitmap_busy (n : Fin 8) : (s.setResBitmap n).busy = s.busy := rfl
@[simp] theorem setResBitmap_done (n : Fin 8) : (s.setResBitmap n).done = s.done := rfl
@[simp] theorem setResBitmap_viol (n : Fin 8) : (s.setResBitmap n).viol = s.viol := rfl
@[simp] theorem setResBitmap_error (n : Fin 8) : (s.setResBitmap n).error = s.error := rfl
@[simp] theorem setResBitmap_cmd (n : Fin 8) : (s.setResBitmap n).cmd = s.cmd := rfl
@[simp] theorem setResBitmap_mem (n : Fin 8) : (s.setResBitmap n).mem = s.mem := rfl
@[simp] theorem setResBitmap_lich (n : Fin 8) : (s.setResBitmap n).lich = s.lich := rfl
@[simp] theorem setResBitmap_pkt (n : Fin 8) : (s.setResBitmap n).pkt = s.pkt := rfl
@[simp] theorem setResBitmap_text (n : Fin 8) : (s.setResBitmap n).text = s.text := rfl
@[simp] theorem setResBitmap_inReset (n : Fin 8) : (s.setResBitmap n).inReset = s.inReset := rfl
@[simp] theorem setResBitmap_bufEpoch (n : Fin 8) : (s.setResBitmap n).bufEpoch = s.bufEpoch := rfl
@[simp] theorem setResBitmap_freeReads (n : Fin 8) : (s.setResBitmap n).freeReads = s.freeReads := rfl
@[simp] theorem setResBitmap_reply (n : Fin 8) : (s.setResBitmap n).reply = s.reply := rfl
@[simp] theorem setResBitmap_inbox (n : Fin 8) : (s.setResBitmap n).inbox = s.inbox := rfl
@[simp] theorem setResBitmap_latencies (n : Fin 8) : (s.setResBitmap n).latencies = s.latencies := rfl
@[simp] theorem setResBitmap_countdown (n : Fin 8) : (s.setResBitmap n).countdown = s.countdown := rfl
@[simp] theorem setResBitmap_argReg (n : Fin 8) (m : Fin 8) : (s.setResBitmap n).argReg m = s.argReg m := rfl
@[simp] theorem setResBitmap_byteAt (n : Fin 8) (a : Nat) : (s.setResBitmap n).byteAt a = s.byteAt a := rfl
@[simp] theorem setResBitmap_ib (n : Fin 8) (j : Nat) : (s.setResBitmap n).ib j = s.ib j := rfl
@[simp] theorem setResBitmap_ob (n : Fin 8) (j : Nat) : (s.setResBitmap n).ob j = s.ob j := rfl

/-! ### clearRes -/

@[simp] theorem clearRes_arg : (s.clearRes).arg = s.arg := rfl
@[simp] theorem clearRes_res : (s.clearRes).res = Vector.replicate 8 0 := rfl
@[simp] theorem clearRes_cmdcnt : (s.clearRes).cmdcnt = s.cmdcnt := rfl
@[simp] theorem clearRes_ctrl : (s.clearRes).ctrl = s.ctrl := rfl
@[simp] theorem clearRes_busy : (s.clearRes).busy = s.busy := rfl
@[simp] theorem clearRes_done : (s.clearRes).done = s.done := rfl
@[simp] theorem clearRes_viol : (s.clearRes).viol = s.viol := rfl
@[simp] theorem clearRes_error : (s.clearRes).error = s.error := rfl
@[simp] theorem clearRes_cmd : (s.clearRes).cmd = s.cmd := rfl
@[simp] theorem clearRes_mem : (s.clearRes).mem = s.mem := rfl
@[simp] theorem clearRes_lich : (s.clearRes).lich = s.lich := rfl
@[simp] theorem clearRes_pkt : (s.clearRes).pkt = s.pkt := rfl
@[simp] theorem clearRes_text : (s.clearRes).text = s.text := rfl
@[simp] theorem clearRes_inReset : (s.clearRes).inReset = s.inReset := rfl
@[simp] theorem clearRes_bufEpoch : (s.clearRes).bufEpoch = s.bufEpoch := rfl
@[simp] theorem clearRes_freeReads : (s.clearRes).freeReads = s.freeReads := rfl
@[simp] theorem clearRes_reply : (s.clearRes).reply = s.reply := rfl
@[simp] theorem clearRes_inbox : (s.clearRes).inbox = s.inbox := rfl
@[simp] theorem clearRes_latencies : (s.clearRes).latencies = s.latencies := rfl
@[simp] theorem clearRes_countdown : (s.clearRes).countdown = s.countdown := rfl
@[simp] theorem clearRes_argReg (m : Fin 8) : (s.clearRes).argReg m = s.argReg m := rfl
@[simp] theorem clearRes_byteAt (a : Nat) : (s.clearRes).byteAt a = s.byteAt a := rfl
@[simp] theorem clearRes_ib (j : Nat) : (s.clearRes).ib j = s.ib j := rfl
@[simp] theorem clearRes_ob (j : Nat) : (s.clearRes).ob j = s.ob j := rfl

/-! ### obWrite -/

@[simp] theorem obWrite_arg (i : Nat) (B : Bytes) : (s.obWrite i B).arg = s.arg := rfl
@[simp] theorem obWrite_res (i : Nat) (B : Bytes) : (s.obWrite i B).res = s.res := rfl
@[simp] theorem obWrite_cmdcnt (i : Nat) (B : Bytes) : (s.obWrite i B).cmdcnt = s.cmdcnt := rfl
@[simp] theorem obWrite_ctrl (i : Nat) (B : Bytes) : (s.obWrite i B).ctrl = s.ctrl := rfl
@[simp] theorem obWrite_busy (i : Nat) (B : Bytes) : (s.obWrite i B).busy = s.busy := rfl
@[simp] theorem obWrite_done (i : Nat) (B : Bytes) : (s.obWrite i B).done = s.done := rfl
@[simp] theorem obWrite_viol (i : Nat) (B : Bytes) : (s.obWrite i B).viol = s.viol := rfl
@[simp] theorem obWrite_error (i : Nat) (B : Bytes) : (s.obWrite i B).error = s.error := rfl
@[simp] theorem obWrite_cmd (i : Nat) (B : Bytes) : (s.obWrite i B).cmd = s.cmd := rfl
@[simp] theorem obWrite_mem (i : Nat) (B : Bytes) : (s.obWrite i B).mem = s.mem.writeBytes (obufBase + i) B := rfl
@[simp] theorem obWrite_lich (i : Nat) (B : Bytes) : (s.obWrite i B).lich = s.lich := rfl
@[simp] theorem obWrite_pkt (i : Nat) (B : Bytes) : (s.obWrite i B).pkt = s.pkt := rfl
@[simp] theorem obWrite_text (i : Nat) (B : Bytes) : (s.obWrite i B).text = s.text := rfl
@[simp] theorem obWrite_inReset (i : Nat) (B : Bytes) : (s.obWrite i B).inReset = s.inReset := rfl
@[simp] theorem obWrite_bufEpoch (i : Nat) (B : Bytes) : (s.obWrite i B).bufEpoch = s.bufEpoch := rfl
@[simp] theorem obWrite_freeReads (i : Nat) (B : Bytes) : (s.obWrite i B).freeReads = s.freeReads := rfl
@[simp] theorem obWrite_reply (i : Nat) (B : Bytes) : (s.obWrite i B).reply = s.reply := rfl
@[simp] theorem obWrite_inbox (i : Nat) (B : Bytes) : (s.obWrite i B).inbox = s.inbox := rfl
@[simp] theorem obWrite_latencies (i : Nat) (B : Bytes) : (s.obWrite i B).latencies = s.latencies := rfl
@[simp] theorem obWrite_countdown (i : Nat) (B : Bytes) : (s.obWrite i B).countdown = s.countdown := rfl
@[simp] theorem obWrite_resReg (i : Nat) (B : Bytes) (m : Fin 8) : (s.obWrite i B).resReg m = s.resReg m := rfl
@[simp] theorem obWrite_argReg (i : Nat) (B : Bytes) (m : Fin 8) : (s.obWrite i B).argReg m = s.argReg m := rfl

/-! ### setLich -/

@[simp] theorem setLich_arg (l : LichCollector) : (s.setLich l).arg = s.arg := rfl
@[simp] theorem setLich_res (l : LichCollector) : (s.setLich l).res = s.res := rfl
@[simp] theorem setLich_cmdcnt (l : LichCollector) : (s.setLich l).cmdcnt = s.cmdcnt := rfl
@[simp] theorem setLich_ctrl (l : LichCollector) : (s.setLich l).ctrl = s.ctrl := rfl
@[simp] theorem setLich_busy (l : LichCollector) : (s.setLich l).busy = s.busy := rfl
@[simp] theorem setLich_done (l : LichCollector) : (s.setLich l).done = s.done := rfl
@[simp] theorem setLich_viol (l : LichCollector) : (s.setLich l).viol = s.viol := rfl
@[simp] theorem setLich_error (l : LichCollector) : (s.setLich l).error = s.error := rfl
@[simp] theorem setLich_cmd (l : LichCollector) : (s.setLich l).cmd = s.cmd := rfl
@[simp] theorem setLich_mem (l : LichCollector) : (s.setLich l).mem = s.mem := rfl
@[simp] theorem setLich_lich (l : LichCollector) : (s.setLich l).lich = l := rfl
@[simp] theorem setLich_pkt (l : LichCollector) : (s.setLich l).pkt = s.pkt := rfl
@[simp] theorem setLich_text (l : LichCollector) : (s.setLich l).text = s.text := rfl
@[simp] theorem setLich_inReset (l : LichCollector) : (s.setLich l).inReset = s.inReset := rfl
@[simp] theorem setLich_bufEpoch (l : LichCollector) : (s.setLich l).bufEpoch = s.bufEpoch := rfl
@[simp] theorem setLich_freeReads (l : LichCollector) : (s.setLich l).freeReads = s.freeReads := rfl
@[simp] theorem setLich_reply (l : LichCollector) : (s.setLich l).reply = s.reply := rfl
@[simp] theorem setLich_inbox (l : LichCollector) : (s.setLich l).inbox = s.inbox := rfl
@[simp] theorem setLich_latencies (l : LichCollector) : (s.setLich l).latencies = s.latencies := rfl
@[simp] theorem setLich_countdown (l : LichCollector) : (s.setLich l).countdown = s.countdown := rfl
@[simp] theorem setLich_resReg (l : LichCollector) (m : Fin 8) : (s.setLich l).resReg m = s.resReg m := rfl
@[simp] theorem setLich_argReg (l : LichCollector) (m : Fin 8) : (s.setLich l).argReg m = s.argReg m := rfl
@[simp] theorem setLich_byteAt (l : LichCollector) (a : Nat) : (s.setLich l).byteAt a = s.byteAt a := rfl
@[simp] theorem setLich_ib (l : LichCollector) (j : Nat) : (s.setLich l).ib j = s.ib j := rfl
@[simp] theorem setLich_ob (l : LichCollector) (j : Nat) : (s.setLich l).ob j = s.ob j := rfl

/-! ### setPkt -/

@[simp] theorem setPkt_arg (p : PacketReassembler) : (s.setPkt p).arg = s.arg := rfl
@[simp] theorem setPkt_res (p : PacketReassembler) : (s.setPkt p).res = s.res := rfl
@[simp] theorem setPkt_cmdcnt (p : PacketReassembler) : (s.setPkt p).cmdcnt = s.cmdcnt := rfl
@[simp] theorem setPkt_ctrl (p : PacketReassembler) : (s.setPkt p).ctrl = s.ctrl := rfl
@[simp] theorem setPkt_busy (p : PacketReassembler) : (s.setPkt p).busy = s.busy := rfl
@[simp] theorem setPkt_done (p : PacketReassembler) : (s.setPkt p).done = s.done := rfl
@[simp] theorem setPkt_viol (p : PacketReassembler) : (s.setPkt p).viol = s.viol := rfl
@[simp] theorem setPkt_error (p : PacketReassembler) : (s.setPkt p).error = s.error := rfl
@[simp] theorem setPkt_cmd (p : PacketReassembler) : (s.setPkt p).cmd = s.cmd := rfl
@[simp] theorem setPkt_mem (p : PacketReassembler) : (s.setPkt p).mem = s.mem := rfl
@[simp] theorem setPkt_lich (p : PacketReassembler) : (s.setPkt p).lich = s.lich := rfl
@[simp] theorem setPkt_pkt (p : PacketReassembler) : (s.setPkt p).pkt = p := rfl
@[simp] theorem setPkt_text (p : PacketReassembler) : (s.setPkt p).text = s.text := rfl
@[simp] theorem setPkt_inReset (p : PacketReassembler) : (s.setPkt p).inReset = s.inReset := rfl
@[simp] theorem setPkt_bufEpoch (p : PacketReassembler) : (s.setPkt p).bufEpoch = s.bufEpoch := rfl
@[simp] theorem setPkt_freeReads (p : PacketReassembler) : (s.setPkt p).freeReads = s.freeReads := rfl
@[simp] theorem setPkt_reply (p : PacketReassembler) : (s.setPkt p).reply = s.reply := rfl
@[simp] theorem setPkt_inbox (p : PacketReassembler) : (s.setPkt p).inbox = s.inbox := rfl
@[simp] theorem setPkt_latencies (p : PacketReassembler) : (s.setPkt p).latencies = s.latencies := rfl
@[simp] theorem setPkt_countdown (p : PacketReassembler) : (s.setPkt p).countdown = s.countdown := rfl
@[simp] theorem setPkt_resReg (p : PacketReassembler) (m : Fin 8) : (s.setPkt p).resReg m = s.resReg m := rfl
@[simp] theorem setPkt_argReg (p : PacketReassembler) (m : Fin 8) : (s.setPkt p).argReg m = s.argReg m := rfl
@[simp] theorem setPkt_byteAt (p : PacketReassembler) (a : Nat) : (s.setPkt p).byteAt a = s.byteAt a := rfl
@[simp] theorem setPkt_ib (p : PacketReassembler) (j : Nat) : (s.setPkt p).ib j = s.ib j := rfl
@[simp] theorem setPkt_ob (p : PacketReassembler) (j : Nat) : (s.setPkt p).ob j = s.ob j := rfl

/-! ### setText -/

@[simp] theorem setText_arg (c : TextCollector) : (s.setText c).arg = s.arg := rfl
@[simp] theorem setText_res (c : TextCollector) : (s.setText c).res = s.res := rfl
@[simp] theorem setText_cmdcnt (c : TextCollector) : (s.setText c).cmdcnt = s.cmdcnt := rfl
@[simp] theorem setText_ctrl (c : TextCollector) : (s.setText c).ctrl = s.ctrl := rfl
@[simp] theorem setText_busy (c : TextCollector) : (s.setText c).busy = s.busy := rfl
@[simp] theorem setText_done (c : TextCollector) : (s.setText c).done = s.done := rfl
@[simp] theorem setText_viol (c : TextCollector) : (s.setText c).viol = s.viol := rfl
@[simp] theorem setText_error (c : TextCollector) : (s.setText c).error = s.error := rfl
@[simp] theorem setText_cmd (c : TextCollector) : (s.setText c).cmd = s.cmd := rfl
@[simp] theorem setText_mem (c : TextCollector) : (s.setText c).mem = s.mem := rfl
@[simp] theorem setText_lich (c : TextCollector) : (s.setText c).lich = s.lich := rfl
@[simp] theorem setText_pkt (c : TextCollector) : (s.setText c).pkt = s.pkt := rfl
@[simp] theorem setText_text (c : TextCollector) : (s.setText c).text = c := rfl
@[simp] theorem setText_inReset (c : TextCollector) : (s.setText c).inReset = s.inReset := rfl
@[simp] theorem setText_bufEpoch (c : TextCollector) : (s.setText c).bufEpoch = s.bufEpoch := rfl
@[simp] theorem setText_freeReads (c : TextCollector) : (s.setText c).freeReads = s.freeReads := rfl
@[simp] theorem setText_reply (c : TextCollector) : (s.setText c).reply = s.reply := rfl
@[simp] theorem setText_inbox (c : TextCollector) : (s.setText c).inbox = s.inbox := rfl
@[simp] theorem setText_latencies (c : TextCollector) : (s.setText c).latencies = s.latencies := rfl
@[simp] theorem setText_countdown (c : TextCollector) : (s.setText c).countdown = s.countdown := rfl
@[simp] theorem setText_resReg (c : TextCollector) (m : Fin 8) : (s.setText c).resReg m = s.resReg m := rfl
@[simp] theorem setText_argReg (c : TextCollector) (m : Fin 8) : (s.setText c).argReg m = s.argReg m := rfl
@[simp] theorem setText_byteAt (c : TextCollector) (a : Nat) : (s.setText c).byteAt a = s.byteAt a := rfl
@[simp] theorem setText_ib (c : TextCollector) (j : Nat) : (s.setText c).ib j = s.ib j := rfl
@[simp] theorem setText_ob (c : TextCollector) (j : Nat) : (s.setText c).ob j = s.ob j := rfl

/-! ### complete -/

@[simp] theorem complete_arg (e : Option Err) : (s.complete e).arg = s.arg := rfl
@[simp] theorem complete_res (e : Option Err) : (s.complete e).res = s.res := rfl
@[simp] theorem complete_cmdcnt (e : Option Err) : (s.complete e).cmdcnt = s.cmdcnt + 1 := rfl
@[simp] theorem complete_ctrl (e : Option Err) : (s.complete e).ctrl = s.ctrl := rfl
@[simp] theorem complete_busy (e : Option Err) : (s.complete e).busy = false := rfl
@[simp] theorem complete_done (e : Option Err) : (s.complete e).done = true := rfl
@[simp] theorem complete_viol (e : Option Err) : (s.complete e).viol = s.viol := rfl
@[simp] theorem complete_error (e : Option Err) : (s.complete e).error = e := rfl
@[simp] theorem complete_cmd (e : Option Err) : (s.complete e).cmd = s.cmd := rfl
@[simp] theorem complete_mem (e : Option Err) : (s.complete e).mem = s.mem := rfl
@[simp] theorem complete_lich (e : Option Err) : (s.complete e).lich = s.lich := rfl
@[simp] theorem complete_pkt (e : Option Err) : (s.complete e).pkt = s.pkt := rfl
@[simp] theorem complete_text (e : Option Err) : (s.complete e).text = s.text := rfl
@[simp] theorem complete_inReset (e : Option Err) : (s.complete e).inReset = s.inReset := rfl
@[simp] theorem complete_bufEpoch (e : Option Err) : (s.complete e).bufEpoch = s.bufEpoch := rfl
@[simp] theorem complete_freeReads (e : Option Err) : (s.complete e).freeReads = s.freeReads := rfl
@[simp] theorem complete_reply (e : Option Err) : (s.complete e).reply = s.reply := rfl
@[simp] theorem complete_inbox (e : Option Err) : (s.complete e).inbox = s.inbox := rfl
@[simp] theorem complete_latencies (e : Option Err) : (s.complete e).latencies = s.latencies := rfl
@[simp] theorem complete_countdown (e : Option Err) : (s.complete e).countdown = s.countdown := rfl
@[simp] theorem complete_resReg (e : Option Err) (m : Fin 8) : (s.complete e).resReg m = s.resReg m := rfl
@[simp] theorem complete_argReg (e : Option Err) (m : Fin 8) : (s.complete e).argReg m = s.argReg m := rfl
@[simp] theorem complete_byteAt (e : Option Err) (a : Nat) : (s.complete e).byteAt a = s.byteAt a := rfl
@[simp] theorem complete_ib (e : Option Err) (j : Nat) : (s.complete e).ib j = s.ib j := rfl
@[simp] theorem complete_ob (e : Option Err) (j : Nat) : (s.complete e).ob j = s.ob j := rfl

/-! ### latch -/

@[simp] theorem latch_arg (w : Word) : (s.latch w).arg = s.arg := rfl
@[simp] theorem latch_res (w : Word) : (s.latch w).res = s.res := rfl
@[simp] theorem latch_cmdcnt (w : Word) : (s.latch w).cmdcnt = s.cmdcnt := rfl
@[simp] theorem latch_ctrl (w : Word) : (s.latch w).ctrl = s.ctrl := rfl
@[simp] theorem latch_busy (w : Word) : (s.latch w).busy = true := rfl
@[simp] theorem latch_done (w : Word) : (s.latch w).done = false := rfl
@[simp] theorem latch_viol (w : Word) : (s.latch w).viol = s.viol := rfl
@[simp] theorem latch_error (w : Word) : (s.latch w).error = none := rfl
@[simp] theorem latch_cmd (w : Word) : (s.latch w).cmd = w := rfl
@[simp] theorem latch_mem (w : Word) : (s.latch w).mem = s.mem := rfl
@[simp] theorem latch_lich (w : Word) : (s.latch w).lich = s.lich := rfl
@[simp] theorem latch_pkt (w : Word) : (s.latch w).pkt = s.pkt := rfl
@[simp] theorem latch_text (w : Word) : (s.latch w).text = s.text := rfl
@[simp] theorem latch_inReset (w : Word) : (s.latch w).inReset = s.inReset := rfl
@[simp] theorem latch_bufEpoch (w : Word) : (s.latch w).bufEpoch = s.bufEpoch := rfl
@[simp] theorem latch_freeReads (w : Word) : (s.latch w).freeReads = s.freeReads := rfl
@[simp] theorem latch_reply (w : Word) : (s.latch w).reply = s.reply := rfl
@[simp] theorem latch_inbox (w : Word) : (s.latch w).inbox = s.inbox := rfl
@[simp] theorem latch_latencies (w : Word) : (s.latch w).latencies = s.latencies := rfl
@[simp] theorem latch_countdown (w : Word) : (s.latch w).countdown = s.countdown := rfl
@[simp] theorem latch_resReg (w : Word) (m : Fin 8) : (s.latch w).resReg m = s.resReg m := rfl
@[simp] theorem latch_argReg (w : Word) (m : Fin 8) : (s.latch w).argReg m = s.argReg m := rfl
@[simp] theorem latch_byteAt (w : Word) (a : Nat) : (s.latch w).byteAt a = s.byteAt a := rfl
@[simp] theorem latch_ib (w : Word) (j : Nat) : (s.latch w).ib j = s.ib j := rfl
@[simp] theorem latch_ob (w : Word) (j : Nat) : (s.latch w).ob j = s.ob j := rfl

/-! ### accept -/

@[simp] theorem accept_arg (w : Word) : (s.accept w).arg = s.arg := rfl
@[simp] theorem accept_res (w : Word) : (s.accept w).res = s.res := rfl
@[simp] theorem accept_cmdcnt (w : Word) : (s.accept w).cmdcnt = s.cmdcnt := rfl
@[simp] theorem accept_ctrl (w : Word) : (s.accept w).ctrl = s.ctrl := rfl
@[simp] theorem accept_busy (w : Word) : (s.accept w).busy = true := rfl
@[simp] theorem accept_done (w : Word) : (s.accept w).done = false := rfl
@[simp] theorem accept_viol (w : Word) : (s.accept w).viol = s.viol := rfl
@[simp] theorem accept_error (w : Word) : (s.accept w).error = none := rfl
@[simp] theorem accept_cmd (w : Word) : (s.accept w).cmd = w := rfl
@[simp] theorem accept_mem (w : Word) : (s.accept w).mem = s.mem := rfl
@[simp] theorem accept_lich (w : Word) : (s.accept w).lich = s.lich := rfl
@[simp] theorem accept_pkt (w : Word) : (s.accept w).pkt = s.pkt := rfl
@[simp] theorem accept_text (w : Word) : (s.accept w).text = s.text := rfl
@[simp] theorem accept_inReset (w : Word) : (s.accept w).inReset = s.inReset := rfl
@[simp] theorem accept_bufEpoch (w : Word) : (s.accept w).bufEpoch = s.bufEpoch := rfl
@[simp] theorem accept_freeReads (w : Word) : (s.accept w).freeReads = s.freeReads := rfl
@[simp] theorem accept_reply (w : Word) : (s.accept w).reply = s.reply := rfl
@[simp] theorem accept_inbox (w : Word) : (s.accept w).inbox = s.inbox := rfl
@[simp] theorem accept_latencies (w : Word) : (s.accept w).latencies = s.latencies.tail := rfl
@[simp] theorem accept_countdown (w : Word) : (s.accept w).countdown = s.latencies.headD 0 := rfl
@[simp] theorem accept_resReg (w : Word) (m : Fin 8) : (s.accept w).resReg m = s.resReg m := rfl
@[simp] theorem accept_argReg (w : Word) (m : Fin 8) : (s.accept w).argReg m = s.argReg m := rfl
@[simp] theorem accept_byteAt (w : Word) (a : Nat) : (s.accept w).byteAt a = s.byteAt a := rfl
@[simp] theorem accept_ib (w : Word) (j : Nat) : (s.accept w).ib j = s.ib j := rfl
@[simp] theorem accept_ob (w : Word) (j : Nat) : (s.accept w).ob j = s.ob j := rfl

/-! ### withCommand -/

@[simp] theorem withCommand_arg (w : Word) : (s.withCommand w).arg = s.arg := rfl
@[simp] theorem withCommand_res (w : Word) : (s.withCommand w).res = s.res := rfl
@[simp] theorem withCommand_cmdcnt (w : Word) : (s.withCommand w).cmdcnt = s.cmdcnt := rfl
@[simp] theorem withCommand_ctrl (w : Word) : (s.withCommand w).ctrl = s.ctrl := rfl
@[simp] theorem withCommand_busy (w : Word) : (s.withCommand w).busy = true := rfl
@[simp] theorem withCommand_done (w : Word) : (s.withCommand w).done = false := rfl
@[simp] theorem withCommand_viol (w : Word) : (s.withCommand w).viol = s.viol := rfl
@[simp] theorem withCommand_error (w : Word) : (s.withCommand w).error = none := rfl
@[simp] theorem withCommand_cmd (w : Word) : (s.withCommand w).cmd = w := rfl
@[simp] theorem withCommand_mem (w : Word) : (s.withCommand w).mem = s.mem := rfl
@[simp] theorem withCommand_lich (w : Word) : (s.withCommand w).lich = s.lich := rfl
@[simp] theorem withCommand_pkt (w : Word) : (s.withCommand w).pkt = s.pkt := rfl
@[simp] theorem withCommand_text (w : Word) : (s.withCommand w).text = s.text := rfl
@[simp] theorem withCommand_inReset (w : Word) : (s.withCommand w).inReset = false := rfl
@[simp] theorem withCommand_bufEpoch (w : Word) : (s.withCommand w).bufEpoch = s.bufEpoch := rfl
@[simp] theorem withCommand_freeReads (w : Word) : (s.withCommand w).freeReads = s.freeReads := rfl
@[simp] theorem withCommand_reply (w : Word) : (s.withCommand w).reply = s.reply := rfl
@[simp] theorem withCommand_inbox (w : Word) : (s.withCommand w).inbox = s.inbox := rfl
@[simp] theorem withCommand_latencies (w : Word) : (s.withCommand w).latencies = s.latencies := rfl
@[simp] theorem withCommand_countdown (w : Word) : (s.withCommand w).countdown = 0 := rfl
@[simp] theorem withCommand_resReg (w : Word) (m : Fin 8) : (s.withCommand w).resReg m = s.resReg m := rfl
@[simp] theorem withCommand_argReg (w : Word) (m : Fin 8) : (s.withCommand w).argReg m = s.argReg m := rfl
@[simp] theorem withCommand_byteAt (w : Word) (a : Nat) : (s.withCommand w).byteAt a = s.byteAt a := rfl
@[simp] theorem withCommand_ib (w : Word) (j : Nat) : (s.withCommand w).ib j = s.ib j := rfl
@[simp] theorem withCommand_ob (w : Word) (j : Nat) : (s.withCommand w).ob j = s.ob j := rfl

/-! ### writeStatus -/

@[simp] theorem writeStatus_arg (v : Word) : (s.writeStatus v).arg = s.arg := rfl
@[simp] theorem writeStatus_res (v : Word) : (s.writeStatus v).res = s.res := rfl
@[simp] theorem writeStatus_cmdcnt (v : Word) : (s.writeStatus v).cmdcnt = s.cmdcnt := rfl
@[simp] theorem writeStatus_ctrl (v : Word) : (s.writeStatus v).ctrl = s.ctrl := rfl
@[simp] theorem writeStatus_busy (v : Word) : (s.writeStatus v).busy = s.busy := rfl
@[simp] theorem writeStatus_done (v : Word) : (s.writeStatus v).done = (s.done && !v.getLsbD 1) := rfl
@[simp] theorem writeStatus_viol (v : Word) : (s.writeStatus v).viol = (s.viol && !v.getLsbD 2) := rfl
@[simp] theorem writeStatus_error (v : Word) : (s.writeStatus v).error = s.error := rfl
@[simp] theorem writeStatus_cmd (v : Word) : (s.writeStatus v).cmd = s.cmd := rfl
@[simp] theorem writeStatus_mem (v : Word) : (s.writeStatus v).mem = s.mem := rfl
@[simp] theorem writeStatus_lich (v : Word) : (s.writeStatus v).lich = s.lich := rfl
@[simp] theorem writeStatus_pkt (v : Word) : (s.writeStatus v).pkt = s.pkt := rfl
@[simp] theorem writeStatus_text (v : Word) : (s.writeStatus v).text = s.text := rfl
@[simp] theorem writeStatus_inReset (v : Word) : (s.writeStatus v).inReset = s.inReset := rfl
@[simp] theorem writeStatus_bufEpoch (v : Word) : (s.writeStatus v).bufEpoch = s.bufEpoch := rfl
@[simp] theorem writeStatus_freeReads (v : Word) : (s.writeStatus v).freeReads = s.freeReads := rfl
@[simp] theorem writeStatus_reply (v : Word) : (s.writeStatus v).reply = s.reply := rfl
@[simp] theorem writeStatus_inbox (v : Word) : (s.writeStatus v).inbox = s.inbox := rfl
@[simp] theorem writeStatus_latencies (v : Word) : (s.writeStatus v).latencies = s.latencies := rfl
@[simp] theorem writeStatus_countdown (v : Word) : (s.writeStatus v).countdown = s.countdown := rfl
@[simp] theorem writeStatus_resReg (v : Word) (m : Fin 8) : (s.writeStatus v).resReg m = s.resReg m := rfl
@[simp] theorem writeStatus_argReg (v : Word) (m : Fin 8) : (s.writeStatus v).argReg m = s.argReg m := rfl
@[simp] theorem writeStatus_byteAt (v : Word) (a : Nat) : (s.writeStatus v).byteAt a = s.byteAt a := rfl
@[simp] theorem writeStatus_ib (v : Word) (j : Nat) : (s.writeStatus v).ib j = s.ib j := rfl
@[simp] theorem writeStatus_ob (v : Word) (j : Nat) : (s.writeStatus v).ob j = s.ob j := rfl

/-! ### setArg -/

@[simp] theorem setArg_arg (n : Fin 8) (v : Word) : (s.setArg n v).arg = s.arg.set n v := rfl
@[simp] theorem setArg_res (n : Fin 8) (v : Word) : (s.setArg n v).res = s.res := rfl
@[simp] theorem setArg_cmdcnt (n : Fin 8) (v : Word) : (s.setArg n v).cmdcnt = s.cmdcnt := rfl
@[simp] theorem setArg_ctrl (n : Fin 8) (v : Word) : (s.setArg n v).ctrl = s.ctrl := rfl
@[simp] theorem setArg_busy (n : Fin 8) (v : Word) : (s.setArg n v).busy = s.busy := rfl
@[simp] theorem setArg_done (n : Fin 8) (v : Word) : (s.setArg n v).done = s.done := rfl
@[simp] theorem setArg_viol (n : Fin 8) (v : Word) : (s.setArg n v).viol = s.viol := rfl
@[simp] theorem setArg_error (n : Fin 8) (v : Word) : (s.setArg n v).error = s.error := rfl
@[simp] theorem setArg_cmd (n : Fin 8) (v : Word) : (s.setArg n v).cmd = s.cmd := rfl
@[simp] theorem setArg_mem (n : Fin 8) (v : Word) : (s.setArg n v).mem = s.mem := rfl
@[simp] theorem setArg_lich (n : Fin 8) (v : Word) : (s.setArg n v).lich = s.lich := rfl
@[simp] theorem setArg_pkt (n : Fin 8) (v : Word) : (s.setArg n v).pkt = s.pkt := rfl
@[simp] theorem setArg_text (n : Fin 8) (v : Word) : (s.setArg n v).text = s.text := rfl
@[simp] theorem setArg_inReset (n : Fin 8) (v : Word) : (s.setArg n v).inReset = s.inReset := rfl
@[simp] theorem setArg_bufEpoch (n : Fin 8) (v : Word) : (s.setArg n v).bufEpoch = s.bufEpoch := rfl
@[simp] theorem setArg_freeReads (n : Fin 8) (v : Word) : (s.setArg n v).freeReads = s.freeReads := rfl
@[simp] theorem setArg_reply (n : Fin 8) (v : Word) : (s.setArg n v).reply = s.reply := rfl
@[simp] theorem setArg_inbox (n : Fin 8) (v : Word) : (s.setArg n v).inbox = s.inbox := rfl
@[simp] theorem setArg_latencies (n : Fin 8) (v : Word) : (s.setArg n v).latencies = s.latencies := rfl
@[simp] theorem setArg_countdown (n : Fin 8) (v : Word) : (s.setArg n v).countdown = s.countdown := rfl
@[simp] theorem setArg_resReg (n : Fin 8) (v : Word) (m : Fin 8) : (s.setArg n v).resReg m = s.resReg m := rfl
@[simp] theorem setArg_byteAt (n : Fin 8) (v : Word) (a : Nat) : (s.setArg n v).byteAt a = s.byteAt a := rfl
@[simp] theorem setArg_ib (n : Fin 8) (v : Word) (j : Nat) : (s.setArg n v).ib j = s.ib j := rfl
@[simp] theorem setArg_ob (n : Fin 8) (v : Word) (j : Nat) : (s.setArg n v).ob j = s.ob j := rfl

/-! ### writeCtrl -/

@[simp] theorem writeCtrl_arg (v : Word) : (s.writeCtrl v).arg = s.arg := rfl
@[simp] theorem writeCtrl_res (v : Word) : (s.writeCtrl v).res = s.res := rfl
@[simp] theorem writeCtrl_cmdcnt (v : Word) : (s.writeCtrl v).cmdcnt = s.cmdcnt := rfl
@[simp] theorem writeCtrl_ctrl (v : Word) : (s.writeCtrl v).ctrl = v.extractLsb' 0 3 := rfl
@[simp] theorem writeCtrl_busy (v : Word) : (s.writeCtrl v).busy = s.busy := rfl
@[simp] theorem writeCtrl_done (v : Word) : (s.writeCtrl v).done = s.done := rfl
@[simp] theorem writeCtrl_viol (v : Word) : (s.writeCtrl v).viol = s.viol := rfl
@[simp] theorem writeCtrl_error (v : Word) : (s.writeCtrl v).error = s.error := rfl
@[simp] theorem writeCtrl_cmd (v : Word) : (s.writeCtrl v).cmd = s.cmd := rfl
@[simp] theorem writeCtrl_mem (v : Word) : (s.writeCtrl v).mem = s.mem := rfl
@[simp] theorem writeCtrl_lich (v : Word) : (s.writeCtrl v).lich = s.lich := rfl
@[simp] theorem writeCtrl_pkt (v : Word) : (s.writeCtrl v).pkt = s.pkt := rfl
@[simp] theorem writeCtrl_text (v : Word) : (s.writeCtrl v).text = s.text := rfl
@[simp] theorem writeCtrl_inReset (v : Word) : (s.writeCtrl v).inReset = s.inReset := rfl
@[simp] theorem writeCtrl_bufEpoch (v : Word) : (s.writeCtrl v).bufEpoch = s.bufEpoch := rfl
@[simp] theorem writeCtrl_freeReads (v : Word) : (s.writeCtrl v).freeReads = s.freeReads := rfl
@[simp] theorem writeCtrl_reply (v : Word) : (s.writeCtrl v).reply = s.reply := rfl
@[simp] theorem writeCtrl_inbox (v : Word) : (s.writeCtrl v).inbox = s.inbox := rfl
@[simp] theorem writeCtrl_latencies (v : Word) : (s.writeCtrl v).latencies = s.latencies := rfl
@[simp] theorem writeCtrl_countdown (v : Word) : (s.writeCtrl v).countdown = s.countdown := rfl
@[simp] theorem writeCtrl_resReg (v : Word) (m : Fin 8) : (s.writeCtrl v).resReg m = s.resReg m := rfl
@[simp] theorem writeCtrl_argReg (v : Word) (m : Fin 8) : (s.writeCtrl v).argReg m = s.argReg m := rfl
@[simp] theorem writeCtrl_byteAt (v : Word) (a : Nat) : (s.writeCtrl v).byteAt a = s.byteAt a := rfl
@[simp] theorem writeCtrl_ib (v : Word) (j : Nat) : (s.writeCtrl v).ib j = s.ib j := rfl
@[simp] theorem writeCtrl_ob (v : Word) (j : Nat) : (s.writeCtrl v).ob j = s.ob j := rfl

/-! ### writeIb -/

@[simp] theorem writeIb_arg (i : Nat) (v : Byte) : (s.writeIb i v).arg = s.arg := rfl
@[simp] theorem writeIb_res (i : Nat) (v : Byte) : (s.writeIb i v).res = s.res := rfl
@[simp] theorem writeIb_cmdcnt (i : Nat) (v : Byte) : (s.writeIb i v).cmdcnt = s.cmdcnt := rfl
@[simp] theorem writeIb_ctrl (i : Nat) (v : Byte) : (s.writeIb i v).ctrl = s.ctrl := rfl
@[simp] theorem writeIb_busy (i : Nat) (v : Byte) : (s.writeIb i v).busy = s.busy := rfl
@[simp] theorem writeIb_done (i : Nat) (v : Byte) : (s.writeIb i v).done = s.done := rfl
@[simp] theorem writeIb_viol (i : Nat) (v : Byte) : (s.writeIb i v).viol = s.viol := rfl
@[simp] theorem writeIb_error (i : Nat) (v : Byte) : (s.writeIb i v).error = s.error := rfl
@[simp] theorem writeIb_cmd (i : Nat) (v : Byte) : (s.writeIb i v).cmd = s.cmd := rfl
@[simp] theorem writeIb_mem (i : Nat) (v : Byte) : (s.writeIb i v).mem = s.mem.write (ibufBase + i) v := rfl
@[simp] theorem writeIb_lich (i : Nat) (v : Byte) : (s.writeIb i v).lich = s.lich := rfl
@[simp] theorem writeIb_pkt (i : Nat) (v : Byte) : (s.writeIb i v).pkt = s.pkt := rfl
@[simp] theorem writeIb_text (i : Nat) (v : Byte) : (s.writeIb i v).text = s.text := rfl
@[simp] theorem writeIb_inReset (i : Nat) (v : Byte) : (s.writeIb i v).inReset = s.inReset := rfl
@[simp] theorem writeIb_bufEpoch (i : Nat) (v : Byte) : (s.writeIb i v).bufEpoch = s.bufEpoch := rfl
@[simp] theorem writeIb_freeReads (i : Nat) (v : Byte) : (s.writeIb i v).freeReads = s.freeReads := rfl
@[simp] theorem writeIb_reply (i : Nat) (v : Byte) : (s.writeIb i v).reply = s.reply := rfl
@[simp] theorem writeIb_inbox (i : Nat) (v : Byte) : (s.writeIb i v).inbox = s.inbox := rfl
@[simp] theorem writeIb_latencies (i : Nat) (v : Byte) : (s.writeIb i v).latencies = s.latencies := rfl
@[simp] theorem writeIb_countdown (i : Nat) (v : Byte) : (s.writeIb i v).countdown = s.countdown := rfl
@[simp] theorem writeIb_resReg (i : Nat) (v : Byte) (m : Fin 8) : (s.writeIb i v).resReg m = s.resReg m := rfl
@[simp] theorem writeIb_argReg (i : Nat) (v : Byte) (m : Fin 8) : (s.writeIb i v).argReg m = s.argReg m := rfl

/-! ### setViol -/

@[simp] theorem setViol_arg : (s.setViol).arg = s.arg := rfl
@[simp] theorem setViol_res : (s.setViol).res = s.res := rfl
@[simp] theorem setViol_cmdcnt : (s.setViol).cmdcnt = s.cmdcnt := rfl
@[simp] theorem setViol_ctrl : (s.setViol).ctrl = s.ctrl := rfl
@[simp] theorem setViol_busy : (s.setViol).busy = s.busy := rfl
@[simp] theorem setViol_done : (s.setViol).done = s.done := rfl
@[simp] theorem setViol_viol : (s.setViol).viol = true := rfl
@[simp] theorem setViol_error : (s.setViol).error = s.error := rfl
@[simp] theorem setViol_cmd : (s.setViol).cmd = s.cmd := rfl
@[simp] theorem setViol_mem : (s.setViol).mem = s.mem := rfl
@[simp] theorem setViol_lich : (s.setViol).lich = s.lich := rfl
@[simp] theorem setViol_pkt : (s.setViol).pkt = s.pkt := rfl
@[simp] theorem setViol_text : (s.setViol).text = s.text := rfl
@[simp] theorem setViol_inReset : (s.setViol).inReset = s.inReset := rfl
@[simp] theorem setViol_bufEpoch : (s.setViol).bufEpoch = s.bufEpoch := rfl
@[simp] theorem setViol_freeReads : (s.setViol).freeReads = s.freeReads := rfl
@[simp] theorem setViol_reply : (s.setViol).reply = s.reply := rfl
@[simp] theorem setViol_inbox : (s.setViol).inbox = s.inbox := rfl
@[simp] theorem setViol_latencies : (s.setViol).latencies = s.latencies := rfl
@[simp] theorem setViol_countdown : (s.setViol).countdown = s.countdown := rfl
@[simp] theorem setViol_resReg (m : Fin 8) : (s.setViol).resReg m = s.resReg m := rfl
@[simp] theorem setViol_argReg (m : Fin 8) : (s.setViol).argReg m = s.argReg m := rfl
@[simp] theorem setViol_byteAt (a : Nat) : (s.setViol).byteAt a = s.byteAt a := rfl
@[simp] theorem setViol_ib (j : Nat) : (s.setViol).ib j = s.ib j := rfl
@[simp] theorem setViol_ob (j : Nat) : (s.setViol).ob j = s.ob j := rfl

/-! ### answer -/

@[simp] theorem answer_arg (r : Reply) : (s.answer r).arg = s.arg := rfl
@[simp] theorem answer_res (r : Reply) : (s.answer r).res = s.res := rfl
@[simp] theorem answer_cmdcnt (r : Reply) : (s.answer r).cmdcnt = s.cmdcnt := rfl
@[simp] theorem answer_ctrl (r : Reply) : (s.answer r).ctrl = s.ctrl := rfl
@[simp] theorem answer_busy (r : Reply) : (s.answer r).busy = s.busy := rfl
@[simp] theorem answer_done (r : Reply) : (s.answer r).done = s.done := rfl
@[simp] theorem answer_viol (r : Reply) : (s.answer r).viol = s.viol := rfl
@[simp] theorem answer_error (r : Reply) : (s.answer r).error = s.error := rfl
@[simp] theorem answer_cmd (r : Reply) : (s.answer r).cmd = s.cmd := rfl
@[simp] theorem answer_mem (r : Reply) : (s.answer r).mem = s.mem := rfl
@[simp] theorem answer_lich (r : Reply) : (s.answer r).lich = s.lich := rfl
@[simp] theorem answer_pkt (r : Reply) : (s.answer r).pkt = s.pkt := rfl
@[simp] theorem answer_text (r : Reply) : (s.answer r).text = s.text := rfl
@[simp] theorem answer_inReset (r : Reply) : (s.answer r).inReset = s.inReset := rfl
@[simp] theorem answer_bufEpoch (r : Reply) : (s.answer r).bufEpoch = s.bufEpoch := rfl
@[simp] theorem answer_freeReads (r : Reply) : (s.answer r).freeReads = s.freeReads := rfl
@[simp] theorem answer_reply (r : Reply) : (s.answer r).reply = r := rfl
@[simp] theorem answer_inbox (r : Reply) : (s.answer r).inbox = s.inbox := rfl
@[simp] theorem answer_latencies (r : Reply) : (s.answer r).latencies = s.latencies := rfl
@[simp] theorem answer_countdown (r : Reply) : (s.answer r).countdown = s.countdown := rfl
@[simp] theorem answer_resReg (r : Reply) (m : Fin 8) : (s.answer r).resReg m = s.resReg m := rfl
@[simp] theorem answer_argReg (r : Reply) (m : Fin 8) : (s.answer r).argReg m = s.argReg m := rfl
@[simp] theorem answer_byteAt (r : Reply) (a : Nat) : (s.answer r).byteAt a = s.byteAt a := rfl
@[simp] theorem answer_ib (r : Reply) (j : Nat) : (s.answer r).ib j = s.ib j := rfl
@[simp] theorem answer_ob (r : Reply) (j : Nat) : (s.answer r).ob j = s.ob j := rfl

/-! ### answerFree -/

@[simp] theorem answerFree_arg (f : Word → Reply) : (s.answerFree f).arg = s.arg := rfl
@[simp] theorem answerFree_res (f : Word → Reply) : (s.answerFree f).res = s.res := rfl
@[simp] theorem answerFree_cmdcnt (f : Word → Reply) : (s.answerFree f).cmdcnt = s.cmdcnt := rfl
@[simp] theorem answerFree_ctrl (f : Word → Reply) : (s.answerFree f).ctrl = s.ctrl := rfl
@[simp] theorem answerFree_busy (f : Word → Reply) : (s.answerFree f).busy = s.busy := rfl
@[simp] theorem answerFree_done (f : Word → Reply) : (s.answerFree f).done = s.done := rfl
@[simp] theorem answerFree_viol (f : Word → Reply) : (s.answerFree f).viol = s.viol := rfl
@[simp] theorem answerFree_error (f : Word → Reply) : (s.answerFree f).error = s.error := rfl
@[simp] theorem answerFree_cmd (f : Word → Reply) : (s.answerFree f).cmd = s.cmd := rfl
@[simp] theorem answerFree_mem (f : Word → Reply) : (s.answerFree f).mem = s.mem := rfl
@[simp] theorem answerFree_lich (f : Word → Reply) : (s.answerFree f).lich = s.lich := rfl
@[simp] theorem answerFree_pkt (f : Word → Reply) : (s.answerFree f).pkt = s.pkt := rfl
@[simp] theorem answerFree_text (f : Word → Reply) : (s.answerFree f).text = s.text := rfl
@[simp] theorem answerFree_inReset (f : Word → Reply) : (s.answerFree f).inReset = s.inReset := rfl
@[simp] theorem answerFree_bufEpoch (f : Word → Reply) : (s.answerFree f).bufEpoch = s.bufEpoch := rfl
@[simp] theorem answerFree_freeReads (f : Word → Reply) : (s.answerFree f).freeReads = s.freeReads + 1 := rfl
@[simp] theorem answerFree_reply (f : Word → Reply) : (s.answerFree f).reply = f s.freeWord := rfl
@[simp] theorem answerFree_inbox (f : Word → Reply) : (s.answerFree f).inbox = s.inbox := rfl
@[simp] theorem answerFree_latencies (f : Word → Reply) : (s.answerFree f).latencies = s.latencies := rfl
@[simp] theorem answerFree_countdown (f : Word → Reply) : (s.answerFree f).countdown = s.countdown := rfl
@[simp] theorem answerFree_resReg (f : Word → Reply) (m : Fin 8) : (s.answerFree f).resReg m = s.resReg m := rfl
@[simp] theorem answerFree_argReg (f : Word → Reply) (m : Fin 8) : (s.answerFree f).argReg m = s.argReg m := rfl
@[simp] theorem answerFree_byteAt (f : Word → Reply) (a : Nat) : (s.answerFree f).byteAt a = s.byteAt a := rfl
@[simp] theorem answerFree_ib (f : Word → Reply) (j : Nat) : (s.answerFree f).ib j = s.ib j := rfl
@[simp] theorem answerFree_ob (f : Word → Reply) (j : Nat) : (s.answerFree f).ob j = s.ob j := rfl

/-! ### afterReset -/

@[simp] theorem afterReset_arg : (s.afterReset).arg = Vector.replicate 8 0 := rfl
@[simp] theorem afterReset_res : (s.afterReset).res = Vector.replicate 8 0 := rfl
@[simp] theorem afterReset_cmdcnt : (s.afterReset).cmdcnt = 0 := rfl
@[simp] theorem afterReset_ctrl : (s.afterReset).ctrl = 0b110 := rfl
@[simp] theorem afterReset_busy : (s.afterReset).busy = false := rfl
@[simp] theorem afterReset_done : (s.afterReset).done = false := rfl
@[simp] theorem afterReset_viol : (s.afterReset).viol = false := rfl
@[simp] theorem afterReset_error : (s.afterReset).error = none := rfl
@[simp] theorem afterReset_cmd : (s.afterReset).cmd = 0 := rfl
@[simp] theorem afterReset_mem : (s.afterReset).mem = [] := rfl
@[simp] theorem afterReset_lich : (s.afterReset).lich = LichCollector.empty := rfl
@[simp] theorem afterReset_pkt : (s.afterReset).pkt = PacketReassembler.idle (s.pkt.epoch + 1) := rfl
@[simp] theorem afterReset_text : (s.afterReset).text = TextCollector.idle (s.text.epoch + 1) := rfl
@[simp] theorem afterReset_inReset : (s.afterReset).inReset = false := rfl
@[simp] theorem afterReset_bufEpoch : (s.afterReset).bufEpoch = s.bufEpoch + 1 := rfl
@[simp] theorem afterReset_freeReads : (s.afterReset).freeReads = s.freeReads := rfl
@[simp] theorem afterReset_reply : (s.afterReset).reply = s.reply := rfl
@[simp] theorem afterReset_inbox : (s.afterReset).inbox = s.inbox := rfl
@[simp] theorem afterReset_latencies : (s.afterReset).latencies = s.latencies := rfl
@[simp] theorem afterReset_countdown : (s.afterReset).countdown = 0 := rfl

/-! ### Where a command's pseudocode ends -/

@[simp] theorem ok_state : s.ok.state = s := rfl
@[simp] theorem ok_error : s.ok.error = none := rfl
@[simp] theorem raise_state (e : Err) : (s.raise e).state = s := rfl
@[simp] theorem raise_error (e : Err) : (s.raise e).error = some e := rfl
@[simp] theorem raiseIf_state (e : Option Err) : (s.raiseIf e).state = s := rfl
@[simp] theorem raiseIf_error (e : Option Err) : (s.raiseIf e).error = e := rfl

end Sys2Proof.Machine.State


namespace Sys2Proof.Machine

/-! ### The collectors -/

@[simp] theorem LichCollector.put_sid (l : LichCollector) (k : Fin 6) (D : BitVec 40) (m : Word) :
    (l.put k D m).sid = l.sid := rfl
@[simp] theorem LichCollector.put_sidValid (l : LichCollector) (k : Fin 6) (D : BitVec 40) (m : Word) :
    (l.put k D m).sidValid = l.sidValid := rfl
@[simp] theorem LichCollector.put_slots (l : LichCollector) (k : Fin 6) (D : BitVec 40) (m : Word) :
    (l.put k D m).slots = l.slots.set k { valid := true, data := D, metric := m } := rfl
@[simp] theorem LichCollector.keyed_sid (sid : BitVec 16) : (LichCollector.keyed sid).sid = sid := rfl
@[simp] theorem LichCollector.keyed_sidValid (sid : BitVec 16) : (LichCollector.keyed sid).sidValid = true := rfl
@[simp] theorem LichCollector.keyed_slots (sid : BitVec 16) :
    (LichCollector.keyed sid).slots = Vector.replicate 6 Slot.empty := rfl
@[simp] theorem PacketReassembler.drop_active (p : PacketReassembler) : p.drop.active = false := rfl
@[simp] theorem PacketReassembler.drop_exp (p : PacketReassembler) : p.drop.exp = 0 := rfl
@[simp] theorem PacketReassembler.drop_pbuf (p : PacketReassembler) : p.drop.pbuf = p.pbuf := rfl
@[simp] theorem PacketReassembler.drop_epoch (p : PacketReassembler) : p.drop.epoch = p.epoch := rfl
@[simp] theorem PacketReassembler.store_active (p : PacketReassembler) (B : Bytes) (c : Nat) :
    (p.store B c).active = true := rfl
@[simp] theorem PacketReassembler.store_exp (p : PacketReassembler) (B : Bytes) (c : Nat) :
    (p.store B c).exp = BitVec.ofNat 6 (c + 1) := rfl
@[simp] theorem PacketReassembler.store_pbuf (p : PacketReassembler) (B : Bytes) (c : Nat) :
    (p.store B c).pbuf = p.pbuf.writeBytes (25 * c) (slice B 0 25) := rfl
@[simp] theorem PacketReassembler.store_epoch (p : PacketReassembler) (B : Bytes) (c : Nat) :
    (p.store B c).epoch = p.epoch := rfl
@[simp] theorem TextCollector.cleared_active (c : TextCollector) : c.cleared.active = false := rfl
@[simp] theorem TextCollector.cleared_cnt (c : TextCollector) : c.cleared.cnt = 0 := rfl
@[simp] theorem TextCollector.cleared_next (c : TextCollector) : c.cleared.next = 0 := rfl
@[simp] theorem TextCollector.cleared_tbuf (c : TextCollector) : c.cleared.tbuf = c.tbuf := rfl
@[simp] theorem TextCollector.cleared_epoch (c : TextCollector) : c.cleared.epoch = c.epoch := rfl
@[simp] theorem TextCollector.store_active (c : TextCollector) (B : Bytes) (p : Nat) :
    (c.store B p).active = c.active := rfl
@[simp] theorem TextCollector.store_cnt (c : TextCollector) (B : Bytes) (p : Nat) : (c.store B p).cnt = c.cnt := rfl
@[simp] theorem TextCollector.store_next (c : TextCollector) (B : Bytes) (p : Nat) :
    (c.store B p).next = BitVec.ofNat 4 (p + 1) := rfl
@[simp] theorem TextCollector.store_tbuf (c : TextCollector) (B : Bytes) (p : Nat) :
    (c.store B p).tbuf = c.tbuf.writeBytes (13 * p) (slice B 1 14) := rfl
@[simp] theorem TextCollector.store_epoch (c : TextCollector) (B : Bytes) (p : Nat) :
    (c.store B p).epoch = c.epoch := rfl
@[simp] theorem TextCollector.begin_active (c : TextCollector) (cc : BitVec 4) : (c.begin cc).active = true := rfl
@[simp] theorem TextCollector.begin_cnt (c : TextCollector) (cc : BitVec 4) : (c.begin cc).cnt = cc := rfl
@[simp] theorem TextCollector.begin_next (c : TextCollector) (cc : BitVec 4) : (c.begin cc).next = 0 := rfl
@[simp] theorem TextCollector.begin_tbuf (c : TextCollector) (cc : BitVec 4) : (c.begin cc).tbuf = c.tbuf := rfl
@[simp] theorem TextCollector.begin_epoch (c : TextCollector) (cc : BitVec 4) : (c.begin cc).epoch = c.epoch := rfl

end Sys2Proof.Machine
end

