-- ==== Sys2Proof/Laws/Ops.lean ====
section
/-! SUPPORT. What the shared operations of Machine/Ops.lean and Machine/Operands.lean do, in the words of Safety.lean:
result registers, OBUF writes, completion. -/

namespace Sys2Proof.Machine

/-! ## Result registers -/

@[simp] theorem State.setRes_resReg (s : State) (n : Fin 8) (v : Word) (m : Fin 8) :
    (s.setRes n v).resReg m = if m = n then v else s.resReg m := by
  simp only [State.resReg, State.setRes, Fin.getElem_fin, Vector.getElem_set, Fin.ext_iff]
  by_cases h : n.val = m.val
  · simp [h]
  · rw [if_neg h, if_neg (fun e => h e.symm)]

@[simp] theorem State.setResNat_resReg (s : State) (n : Fin 8) (v : Nat) (m : Fin 8) :
    (s.setResNat n v).resReg m = if m = n then BitVec.ofNat 32 v else s.resReg m := State.setRes_resReg ..

@[simp] theorem State.setResAddr_resReg (s : State) (lo hi : Fin 8) (n : Nat) (m : Fin 8) :
    (s.setResAddr lo hi n).resReg m
      = if m = hi then BitVec.ofNat 32 (n / 2 ^ 32)
        else if m = lo then BitVec.ofNat 32 (n % 2 ^ 32) else s.resReg m := by
  simp [State.setResAddr]

@[simp] theorem State.setResBitmap_resReg (s : State) (n m : Fin 8) :
    (s.setResBitmap n).resReg m = if m = n then s.lich.bitmap.setWidth 32 else s.resReg m := State.setRes_resReg ..

@[simp] theorem State.clearRes_resReg (s : State) (m : Fin 8) : s.clearRes.resReg m = 0 := by
  simp [State.resReg, State.clearRes]

@[simp] theorem State.setArg_argReg (s : State) (n : Fin 8) (v : Word) (m : Fin 8) :
    (s.setArg n v).argReg m = if m = n then v else s.argReg m := by
  simp only [State.argReg, State.setArg, Fin.getElem_fin, Vector.getElem_set, Fin.ext_iff]
  by_cases h : n.val = m.val
  · simp [h]
  · rw [if_neg h, if_neg (fun e => h e.symm)]

/-! ## IBUF and OBUF -/

@[simp] theorem State.ibytes_length (s : State) (i j : Nat) : (s.ibytes i j).length = j - i := by simp [State.ibytes]

theorem State.ibytes_getElem (s : State) (i j k : Nat) (h : k < (s.ibytes i j).length) :
    (s.ibytes i j)[k] = s.ib (i + k) := by simp [State.ibytes]

@[simp] theorem State.ibytes_getElem? (s : State) (i j k : Nat) :
    (s.ibytes i j)[k]? = if k < j - i then some (s.ib (i + k)) else none := by
  simp only [State.ibytes, List.getElem?_map]
  by_cases h : k < j - i
  · simp [h]
  · simp [h]

/-- An OBUF write leaves IBUF as it is. -/
@[simp] theorem State.obWrite_ib (s : State) (i : Nat) (B : Bytes) (j : Nat) (h : j < 1024) :
    (s.obWrite i B).ib j = s.ib j := by
  simp only [State.ib, State.byteAt_obWrite]
  rw [if_neg (by unfold obufBase ibufBase; omega)]

/-- An OBUF write leaves every byte outside the written range as it is. -/
theorem State.obWrite_byteAt_of_not (s : State) (i : Nat) (B : Bytes) (a : Nat)
    (h : ¬ (obufBase + i ≤ a ∧ a < obufBase + i + B.length)) : (s.obWrite i B).byteAt a = s.byteAt a := by
  rw [State.byteAt_obWrite, if_neg h]

/-- Byte k of OBUF after OB[i..) was written. -/
@[simp] theorem State.obWrite_ob (s : State) (i : Nat) (B : Bytes) (k : Nat) :
    (s.obWrite i B).ob k = if i ≤ k ∧ k < i + B.length then B.getD (k - i) 0 else s.ob k := by
  simp only [State.ob, State.byteAt_obWrite]
  by_cases h : i ≤ k ∧ k < i + B.length
  · rw [if_pos h, if_pos (by omega), show obufBase + k - (obufBase + i) = k - i by omega]
  · rw [if_neg h, if_neg (by omega)]

/-- OB[i..) holds what was just written there. -/
@[simp] theorem ObHolds.write (s : State) (i : Nat) (B : Bytes) : ObHolds (s.obWrite i B) i B := by
  intro k hk
  rw [State.obWrite_ob, if_pos (by omega), show i + k - i = k by omega, List.getD_eq_getElem?_getD,
    List.getElem?_eq_getElem hk]
  rfl

/-- A write elsewhere in OBUF leaves what OB[i..) holds. -/
theorem ObHolds.keep {s : State} {i : Nat} {B : Bytes} (h : ObHolds s i B) {j : Nat} {C : Bytes}
    (hd : i + B.length ≤ j ∨ j + C.length ≤ i) : ObHolds (s.obWrite j C) i B := by
  intro k hk
  rw [State.obWrite_ob, if_neg (by omega)]
  exact h k hk

/-- What OB[i..) holds depends on the bytes of OBUF only. -/
theorem ObHolds.congr {s t : State} {i : Nat} {B : Bytes} (h : ObHolds s i B) (hb : ∀ k, t.ob k = s.ob k) :
    ObHolds t i B := fun k hk => (hb _).trans (h k hk)

/-! What OBUF holds does not depend on anything else. -/

@[simp] theorem obHolds_setRes (s : State) (n : Fin 8) (v : Word) (i : Nat) (B : Bytes) :
    ObHolds (s.setRes n v) i B ↔ ObHolds s i B := Iff.rfl
@[simp] theorem obHolds_setResNat (s : State) (n : Fin 8) (v : Nat) (i : Nat) (B : Bytes) :
    ObHolds (s.setResNat n v) i B ↔ ObHolds s i B := Iff.rfl
@[simp] theorem obHolds_setResAddr (s : State) (lo hi : Fin 8) (v : Nat) (i : Nat) (B : Bytes) :
    ObHolds (s.setResAddr lo hi v) i B ↔ ObHolds s i B := Iff.rfl
@[simp] theorem obHolds_setResBitmap (s : State) (n : Fin 8) (i : Nat) (B : Bytes) :
    ObHolds (s.setResBitmap n) i B ↔ ObHolds s i B := Iff.rfl
@[simp] theorem obHolds_clearRes (s : State) (i : Nat) (B : Bytes) :
    ObHolds (s.clearRes) i B ↔ ObHolds s i B := Iff.rfl
@[simp] theorem obHolds_setLich (s : State) (l : LichCollector) (i : Nat) (B : Bytes) :
    ObHolds (s.setLich l) i B ↔ ObHolds s i B := Iff.rfl
@[simp] theorem obHolds_setPkt (s : State) (p : PacketReassembler) (i : Nat) (B : Bytes) :
    ObHolds (s.setPkt p) i B ↔ ObHolds s i B := Iff.rfl
@[simp] theorem obHolds_setText (s : State) (c : TextCollector) (i : Nat) (B : Bytes) :
    ObHolds (s.setText c) i B ↔ ObHolds s i B := Iff.rfl
@[simp] theorem obHolds_complete (s : State) (e : Option Err) (i : Nat) (B : Bytes) :
    ObHolds (s.complete e) i B ↔ ObHolds s i B := Iff.rfl

/-- Two byte sequences held one after the other. -/
theorem ObHolds.append {s : State} {i : Nat} {B C : Bytes} (hB : ObHolds s i B) (hC : ObHolds s (i + B.length) C) :
    ObHolds s i (B ++ C) := by
  intro k hk
  by_cases h : k < B.length
  · rw [List.getElem_append_left h]
    exact hB k h
  · rw [List.length_append] at hk
    rw [List.getElem_append_right (by omega)]
    have := hC (k - B.length) (by omega)
    rwa [show i + B.length + (k - B.length) = i + k by omega] at this

/-! ## Completion -/

/-- Every command completes: what its run gives is the next state, with STATUS and CMDCNT written (R350 step 4). -/
theorem Run.finish_eq (r : Run) : r.finish = .next (r.state.complete r.error) := rfl

/-- Nothing that only the host writes has changed. -/
theorem HostSideKept.refl (s : State) : HostSideKept s s := ⟨rfl, rfl, rfl, rfl, rfl, rfl, rfl, rfl, rfl, rfl, rfl⟩

/-- A completion after writes that keep the host's side is a completion. -/
theorem Completed.of_kept {s u : State} (h : HostSideKept s u) (hc : u.cmdcnt = s.cmdcnt) (e : Option Err) :
    Completed s (u.complete e) e :=
  ⟨rfl, rfl, rfl, by rw [State.complete_cmdcnt, hc], h⟩

/-- From what a run leaves to what `exec` gives. -/
theorem Gives.of_run {i : Instr} {s : State} {e : Option Err} {w : List (Fin 8)} {n : Nat} {post : State → Prop}
    (r : Run) (hx : exec i s = r.finish) (he : r.error = e) (hk : HostSideKept s r.state)
    (hc : r.state.cmdcnt = s.cmdcnt) (hr : ∀ m, m ∉ w → r.state.resReg m = s.resReg m)
    (hb : ∀ a, ¬ (obufBase ≤ a ∧ a < obufBase + n) → r.state.byteAt a = s.byteAt a)
    (hp : post (r.state.complete e)) : Gives i s e w n post :=
  ⟨r.state.complete e, by rw [hx, Run.finish_eq, he], Completed.of_kept hk hc e, hr, hb, hp⟩

/-- From what a run that touches no collector leaves to what `exec` yields. -/
theorem Yields.of_run {i : Instr} {s : State} {e : Option Err} {w : List (Fin 8)} {n : Nat} {post : State → Prop}
    (r : Run) (hx : exec i s = r.finish) (he : r.error = e) (hk : HostSideKept s r.state)
    (hc : r.state.cmdcnt = s.cmdcnt) (hl : CollectorsKept s r.state)
    (hr : ∀ m, m ∉ w → r.state.resReg m = s.resReg m)
    (hb : ∀ a, ¬ (obufBase ≤ a ∧ a < obufBase + n) → r.state.byteAt a = s.byteAt a)
    (hp : post (r.state.complete e)) : Yields i s e w n post :=
  Gives.of_run r hx he hk hc hr hb ⟨hl, hp⟩

/-- A command whose run raises before it writes anything only raises (60_exceptions.md R355). -/
theorem OnlyRaises.of_run {i : Instr} {s : State} {e : Err} {r : Run} (hx : exec i s = r.finish)
    (hr : r = s.raise e) : OnlyRaises i s e := by
  subst hr
  exact Yields.of_run (s.raise e) hx rfl (HostSideKept.refl s) rfl ⟨rfl, rfl, rfl⟩ (fun _ _ => rfl) (fun _ _ => rfl)
    trivial

/-! ## Operands -/

/-- A slice of a byte range of IBUF is the smaller range. -/
theorem State.slice_ibytes (s : State) (i j a b : Nat) (h : i + b ≤ j) :
    slice (s.ibytes i j) a b = s.ibytes (i + a) (i + b) := by
  apply List.ext_getElem?
  intro k
  rw [slice_getElem?, State.ibytes_getElem?, State.ibytes_getElem?]
  by_cases hk : k < b - a
  · rw [if_pos hk, if_pos (by omega), if_pos (by omega), Nat.add_assoc]
  · rw [if_neg hk, if_neg (by omega)]

/-- Two neighbouring byte ranges of IBUF. -/
theorem State.ibytes_append (s : State) (i j k : Nat) (h1 : i ≤ j) (h2 : j ≤ k) :
    s.ibytes i j ++ s.ibytes j k = s.ibytes i k := by
  apply List.ext_getElem?
  intro m
  simp only [List.getElem?_append, State.ibytes_length, State.ibytes_getElem?]
  by_cases hm : m < j - i
  · rw [if_pos hm, if_pos hm, if_pos (by omega)]
  · rw [if_neg hm]
    by_cases hk : m < k - i
    · rw [if_pos (by omega), if_pos hk]
      congr 2
      omega
    · rw [if_neg (by omega), if_neg hk]

theorem State.ibytes_getD (s : State) (i j k : Nat) (h : k < j - i) : (s.ibytes i j).getD k 0 = s.ib (i + k) := by
  rw [List.getD_eq_getElem?_getD, State.ibytes_getElem?, if_pos h]
  rfl

/-- A packed bit-string operand is the string of the bits of IBUF (20_memory.md R65). -/
theorem State.ibits_zero (s : State) (n : Nat) : s.ibits 0 n = (List.range n).map s.ibBit := by
  apply List.ext_getElem?
  intro k
  simp only [State.ibits, List.getElem?_take, List.getElem?_map]
  by_cases hk : k < n
  · rw [if_pos hk, List.getElem?_range hk, List.getElem?_eq_getElem (by simp; omega)]
    have := bits_getD (s.ibytes 0 (0 + (n + 7) / 8)) k
    rw [State.ibytes_getD _ _ _ _ (by omega), List.getD_eq_getElem?_getD, List.getElem?_eq_getElem (by simp; omega)] at this
    simpa [State.ibBit] using this
  · rw [if_neg hk, List.getElem?_eq_none (by simp; omega)]
    rfl

/-- Bit i of the bits of a byte range of IBUF. -/
theorem State.bits_ibytes_getD (s : State) (n i : Nat) (h : i < 8 * n) :
    (bits (s.ibytes 0 n)).getD i false = s.ibBit i := by
  rw [bits_getD, State.ibytes_getD _ _ _ _ (by omega), Nat.zero_add]
  rfl

/-- The bits of OBUF where a packed bit string was written (20_memory.md R65). -/
theorem ObHolds.obBit_pack {t : State} {c : Bits} (h : ObHolds t 0 (pack c)) {k : Nat}
    (hk : k < 8 * ((c.length + 7) / 8)) : t.obBit k = c.getD k false := by
  have hl : k / 8 < (pack c).length := by rw [pack_length]; omega
  have := h (k / 8) hl
  rw [Nat.zero_add] at this
  rw [State.obBit, this, ← pack_bit c k hk, List.getD_eq_getElem?_getD, List.getElem?_eq_getElem hl]
  rfl

end Sys2Proof.Machine
end

