-- ==== Sys2Proof/Laws/Codec.lean ====
section
/-! SUPPORT. What the codec functions do: Golay decoding, puncturing, the encoder's length, the interleaver, the
randomizer, the LSF check. -/

namespace Sys2Proof.Machine

/-! ## Golay (Machine/Golay.lean) -/

/-- `golay_hard` finds a data word within distance 3, and its codeword and distance (44_golay.md R182). -/
theorem golayHard_some {P : Params} {r : BitVec 24} {g : GolayResult} (h : golayHard P r = some g) :
    g.code = golay P g.data ∧ g.metric = hamming (golay P g.data) r ∧ hamming (golay P g.data) r ≤ 3 := by
  simp only [golayHard, Option.map_eq_some_iff] at h
  obtain ⟨d, hd, rfl⟩ := h
  exact ⟨rfl, rfl, by simpa using List.find?_some hd⟩

/-- `golay_hard` fails when no data word is within distance 3 (44_golay.md R182). -/
theorem golayHard_none {P : Params} {r : BitVec 24} :
    golayHard P r = none ↔ ∀ d : BitVec 12, 3 < hamming (golay P d) r := by
  simp only [golayHard, Option.map_eq_none_iff, List.find?_eq_none, List.mem_range, decide_eq_true_eq, Nat.not_le]
  constructor
  · intro h d
    have := h d.toNat d.isLt
    rwa [BitVec.ofNat_toNat, BitVec.setWidth_eq] at this
  · intro h d _
    exact h _

/-- The better of two candidates, the first among equals: one step of the search of `golay_soft`. -/
theorem golaySoft_foldl (P : Params) (S : Bytes) (n : Nat) (b0 : GolayResult) :
    let best := (List.range n).foldl
      (fun best k => if (golayCandidate P S (k + 1)).metric < best.metric then golayCandidate P S (k + 1) else best) b0
    (best = b0 ∨ ∃ k < n, best = golayCandidate P S (k + 1) ∧ best.metric < b0.metric
        ∧ ∀ j < k, best.metric < (golayCandidate P S (j + 1)).metric)
    ∧ best.metric ≤ b0.metric ∧ ∀ k < n, best.metric ≤ (golayCandidate P S (k + 1)).metric := by
  induction n with
  | zero => simp
  | succ n ih =>
    simp only [List.range_succ, List.foldl_append, List.foldl_cons, List.foldl_nil]
    obtain ⟨h1, h2, h3⟩ := ih
    generalize (List.range n).foldl
      (fun best k => if (golayCandidate P S (k + 1)).metric < best.metric then golayCandidate P S (k + 1) else best) b0
      = best at *
    split
    · rename_i hlt
      refine ⟨.inr ⟨n, by omega, rfl, by omega, fun j hj => Nat.lt_of_lt_of_le hlt (h3 j hj)⟩, by omega, ?_⟩
      intro k hk
      rcases Nat.lt_succ_iff_lt_or_eq.1 hk with hk | rfl
      · exact Nat.le_of_lt (Nat.lt_of_lt_of_le hlt (h3 k hk))
      · exact Nat.le_refl _
    · rename_i hge
      refine ⟨?_, h2, ?_⟩
      · rcases h1 with h1 | ⟨k, hk, h1⟩
        · exact .inl h1
        · exact .inr ⟨k, by omega, h1⟩
      · intro k hk
        rcases Nat.lt_succ_iff_lt_or_eq.1 hk with hk | rfl
        · exact h3 k hk
        · omega

/-- `golay_soft` answers the candidate of some data word; no candidate has a smaller metric, and no lower data word has
an equal one (44_golay.md R183; log 12). -/
theorem golaySoft_spec (P : Params) (S : Bytes) :
    ∃ d < 4096, golaySoft P S = golayCandidate P S d
      ∧ (∀ k < 4096, (golayCandidate P S d).metric ≤ (golayCandidate P S k).metric)
      ∧ ∀ k < d, (golayCandidate P S d).metric < (golayCandidate P S k).metric := by
  obtain ⟨h1, h2, h3⟩ := golaySoft_foldl P S 4095 (golayCandidate P S 0)
  have hmin : ∀ k < 4096, (golaySoft P S).metric ≤ (golayCandidate P S k).metric := by
    intro k hk
    cases k with
    | zero => exact h2
    | succ k => exact h3 k (by omega)
  rcases h1 with h1 | ⟨k, hk, h1, hlt, hj⟩
  · have h1 : golaySoft P S = golayCandidate P S 0 := h1
    exact ⟨0, by omega, h1, fun k hk => h1 ▸ hmin k hk, fun k hk => by omega⟩
  · have h1 : golaySoft P S = golayCandidate P S (k + 1) := h1
    refine ⟨k + 1, by omega, h1, fun j hj => h1 ▸ hmin j hj, fun j hj' => ?_⟩
    cases j with
    | zero => exact h1 ▸ hlt
    | succ j => exact h1 ▸ hj j (by omega)

/-- The data of a candidate is its data word. -/
@[simp] theorem golayCandidate_data (P : Params) (S : Bytes) (d : Nat) :
    (golayCandidate P S d).data = BitVec.ofNat 12 d := rfl

/-- The codeword of a candidate. -/
@[simp] theorem golayCandidate_code (P : Params) (S : Bytes) (d : Nat) :
    (golayCandidate P S d).code = golay P (BitVec.ofNat 12 d) := rfl

/-- The metric of a candidate. -/
@[simp] theorem golayCandidate_metric (P : Params) (S : Bytes) (d : Nat) :
    (golayCandidate P S d).metric = golayMetric S (golay P (BitVec.ofNat 12 d)) := rfl

@[simp] theorem wireBits_length {w : Nat} (c : BitVec w) : (wireBits c).length = w := by simp [wireBits]

/-- A LICH unit becomes 96 coded bits (44_golay.md R184). -/
@[simp] theorem lichEncode_length (P : Params) (u : BitVec 48) : (lichEncode P u).length = 96 := by
  simp [lichEncode, List.range_succ]

/-- The 1 bits of a concatenation. -/
theorem popcount_append {m n : Nat} (a : BitVec m) (b : BitVec n) : popcount (a ++ b) = popcount b + popcount a := by
  unfold popcount
  rw [show List.range (m + n) = List.range n ++ (List.range m).map (n + ·) by rw [Nat.add_comm, List.range_add],
    List.countP_append, List.countP_map]
  congr 1
  · refine List.countP_congr fun i hi => ?_
    rw [BitVec.getLsbD_append, if_pos (List.mem_range.1 hi)]
  · refine List.countP_congr fun i _ => ?_
    rw [Function.comp_apply, BitVec.getLsbD_append, if_neg (by omega), Nat.add_sub_cancel_left]

/-- The distance of two codewords, half by half (44_golay.md R180). -/
theorem hamming_append {m n : Nat} (a c : BitVec m) (b d : BitVec n) :
    hamming (a ++ b) (c ++ d) = hamming b d + hamming a c := by
  unfold hamming
  rw [BitVec.xor_append, popcount_append]
/-- The distance of a soft image from a bit (00_scope.md R10). -/
@[simp] theorem dist_softBit (b c : Bool) : dist (softBit b) c = if b = c then 0 else 255 := by
  cases b <;> cases c <;> rfl

/-- The metric of a codeword is 0 exactly when the soft bytes are its soft image (44_golay.md R183). -/
theorem golayMetric_image {S : Bytes} {c : BitVec 24}
    (h : ∀ j < 24, S.getD j 0 = softBit (c.getLsbD (23 - j))) (c' : BitVec 24) : golayMetric S c' = 0 ↔ c' = c := by
  have hm : golayMetric S c'
      = ((List.range 24).map fun j => if c.getLsbD (23 - j) = c'.getLsbD (23 - j) then 0 else 255).sum := by
    unfold golayMetric
    congr 1
    refine List.map_congr_left fun j hj => ?_
    rw [h j (List.mem_range.1 hj), dist_softBit]
  rw [hm, List.sum_eq_zero_iff]
  simp only [List.mem_map, List.mem_range, forall_exists_index, and_imp, forall_apply_eq_imp_iff₂]
  constructor
  · intro hz
    refine BitVec.eq_of_getLsbD_eq fun i hi => ?_
    have := hz (23 - i) (by omega)
    rw [show 23 - (23 - i) = i by omega] at this
    by_contra hne
    rw [if_neg fun he => hne he.symm] at this
    omega
  · rintro rfl j _
    exact if_pos rfl

/-- A codeword carries its data in its high half (44_golay.md R180). -/
theorem golay_inj {P : Params} {d d' : BitVec 12} (h : golay P d = golay P d') : d = d' := by
  have : (golay P d).extractLsb' 12 12 = (golay P d').extractLsb' 12 12 := by rw [h]
  have key : ∀ d : BitVec 12, (golay P d).extractLsb' 12 12 = d := fun d => by
    refine BitVec.eq_of_getLsbD_eq fun i hi => ?_
    rw [BitVec.getLsbD_extractLsb', golay, BitVec.getLsbD_append, if_neg (by omega)]
    simp [hi]
  rwa [key, key] at this

/-- The soft image of a codeword decodes to its data word with metric 0 (44_golay.md R183). -/
theorem golaySoft_image {P : Params} {S : Bytes} {d : BitVec 12}
    (h : ∀ j < 24, S.getD j 0 = softBit ((golay P d).getLsbD (23 - j))) :
    golaySoft P S = { data := d, metric := 0, code := golay P d } := by
  obtain ⟨k, _, hs, hmin, -⟩ := golaySoft_spec P S
  have h0 := hmin d.toNat d.isLt
  have hd : BitVec.ofNat 12 d.toNat = d := by simp
  rw [golayCandidate_metric, golayCandidate_metric, hd, (golayMetric_image h _).2 rfl] at h0
  have hk := (golayMetric_image h _).1 (Nat.le_zero.1 h0)
  have hkd := golay_inj hk
  rw [hs]
  simp only [golayCandidate, hkd, GolayResult.mk.injEq, and_true, true_and]
  exact (golayMetric_image h _).2 rfl
/-! ## Convolutional code and puncturing (Machine/Conv.lean) -/

@[simp] theorem convFrom_length (st : BitVec 4) (u : Bits) : (convFrom st u).length = 2 * u.length := by
  induction u generalizing st with
  | nil => rfl
  | cons b u ih => simp [convFrom, ih]; omega

/-- The kept elements are those whose position the mask keeps (45_conv_viterbi.md R203). -/
theorem punctureFrom_eq {α : Type} (P : Bits) (z : α) (i : Nat) (c : List α) :
    punctureFrom P i c = ((List.range c.length).filter fun j => maskBit P (i + j)).map fun j => c.getD j z := by
  induction c generalizing i with
  | nil => rfl
  | cons x c ih =>
    rw [List.length_cons, List.range_succ_eq_map, List.filter_cons, Nat.add_zero, punctureFrom, ih, List.filter_map]
    have hf : ((fun j => maskBit P (i + j)) ∘ Nat.succ) = fun j => maskBit P (i + 1 + j) := by
      funext j
      simp only [Function.comp, Nat.succ_eq_add_one]
      congr 1
      omega
    rw [hf]
    split <;> simp [Function.comp_def]

/-- `puncture(c, P)` is the subsequence at the kept positions (45_conv_viterbi.md R203). -/
theorem puncture_eq {α : Type} (P : Bits) (z : α) (c : List α) :
    puncture P c = ((List.range c.length).filter fun j => maskBit P j).map fun j => c.getD j z := by
  rw [puncture, punctureFrom_eq P z]
  simp

/-- The number of kept bits (45_conv_viterbi.md R203). -/
theorem puncture_length {α : Type} (P : Bits) (c : List α) : (puncture P c).length = kept P c.length := by
  cases c with
  | nil => rfl
  | cons x c => rw [puncture_eq P x, List.length_map, kept, List.countP_eq_length_filter]

@[simp] theorem depunctureFrom_length (P : Bits) (i n : Nat) (S : Bytes) : (depunctureFrom P i n S).length = n := by
  induction n generalizing i S with
  | zero => rfl
  | succ n ih => simp only [depunctureFrom]; split <;> simp [ih]

@[simp] theorem depuncture_length (P : Bits) (C : Nat) (S : Bytes) : (depuncture P C S).length = C :=
  depunctureFrom_length ..

theorem traceback_length (d : List (List Bool)) (q : Nat) (v : Bits) :
    (traceback d q v).length = d.length + v.length := by
  induction d generalizing q v with
  | nil => simp [traceback]
  | cons d ds ih => rw [traceback, ih]; simp; omega

theorem viterbiForward_length (xs : List (SoftPos × SoftPos)) (pm : List PathMetric) (decs : List (List Bool)) :
    (viterbiForward xs pm decs).2.length = xs.length + decs.length := by
  induction xs generalizing pm decs with
  | nil => simp [viterbiForward]
  | cons x xs ih => rw [viterbiForward, ih]; simp; omega

theorem pairUp_length {α : Type} (n : Nat) (xs : List α) (h : xs.length = 2 * n) : (pairUp xs).length = n := by
  induction n generalizing xs with
  | zero =>
    obtain rfl : xs = [] := List.length_eq_zero_iff.1 (by simpa using h)
    rfl
  | succ n ih =>
    match xs, h with
    | a :: b :: xs, h => simp only [pairUp, List.length_cons] at h ⊢; rw [ih xs (by omega)]

/-- The order of the metrics is total (45_conv_viterbi.md R206). -/
theorem PathMetric.le_total (a b : PathMetric) : a.le b = true ∨ b.le a = true := by
  cases a <;> cases b <;> simp [PathMetric.le, Nat.le_total]

/-- What add-compare-select does for one state: the survivor comes from the predecessor the decision names, neither
predecessor offers less, and p_hi is chosen only where p_lo offers more, so that a tie goes to p_lo (45_conv_viterbi.md
R206). -/
theorem acsState_spec (pm : List PathMetric) (x : SoftPos × SoftPos) (q : Nat) :
    let lo := pathThrough pm x (predLo q) q
    let hi := pathThrough pm x (predHi q) q
    let r := acsState pm x q
    r.1 = (if r.2 then hi else lo) ∧ r.1.le lo = true ∧ r.1.le hi = true ∧ (r.2 = true ↔ lo.le hi = false) := by
  have hr (a : PathMetric) : a.le a = true := (PathMetric.le_total a a).elim id id
  simp only [acsState]
  split
  · simp [*]
  · have := PathMetric.le_total (pathThrough pm x (predLo q) q) (pathThrough pm x (predHi q) q)
    simp_all

/-- The decoder answers N bits (45_conv_viterbi.md R207). -/
theorem viterbi_length (P : Bits) (N : Nat) (S : Bytes) : (viterbi P N S).1.length = N := by
  simp only [viterbi, List.length_take, traceback_length, viterbiForward_length]
  rw [pairUp_length (N + 4) _ (depuncture_length ..)]
  simp

/-! ## Interleaver, randomizer, PRBS (Machine/FrameBits.lean) -/

@[simp] theorem interleave_length {α : Type} (z : α) (x : List α) : (interleave z x).length = 368 := by
  simp [interleave, frameBits]

/-- Element i of the interleaved sequence is element π(i) (46_interleave_randomize_prbs.md R231). -/
theorem interleave_getD {α : Type} (z : α) (x : List α) (i : Nat) (h : i < 368) :
    (interleave z x).getD i z = x.getD (qpp i) z := by
  rw [interleave, List.getD_eq_getElem?_getD, List.getElem?_map, List.getElem?_range (by unfold frameBits; exact h)]
  rfl

theorem qpp_lt (i : Nat) : qpp i < 368 := Nat.mod_lt _ (by omega)

@[simp] theorem randBits_hw_length : (randBits hw).length = 368 := by rw [randBits, bits_length]; rfl

theorem randBits_getD (P : Params) (i : Nat) :
    (randBits P).getD i false = (P.randSeq.getD (i / 8) 0).getLsbD (7 - i % 8) := bits_getD ..

@[simp] theorem randomizeHard_length (x : Bits) : (randomizeHard hw x).length = min x.length 368 := by
  simp [randomizeHard]

/-- Bit i of the randomized string (46_interleave_randomize_prbs.md R233). -/
theorem randomizeHard_getD (x : Bits) (i : Nat) (h : i < 368) (hx : x.length = 368) :
    (randomizeHard hw x).getD i false = (x.getD i false ^^ (randBits hw).getD i false) := by
  simp only [randomizeHard, List.getD_eq_getElem?_getD, List.getElem?_zipWith]
  rw [List.getElem?_eq_getElem (by omega : i < x.length), List.getElem?_eq_getElem (by simpa using h)]
  rfl

@[simp] theorem randomizeSoft_length (x : Bytes) : (randomizeSoft hw x).length = min x.length 368 := by
  simp [randomizeSoft]

/-- Byte i of the randomized soft sequence (46_interleave_randomize_prbs.md R233). -/
theorem randomizeSoft_getD (x : Bytes) (i : Nat) (h : i < 368) (hx : x.length = 368) :
    (randomizeSoft hw x).getD i 0 = if (randBits hw).getD i false then 255 - x.getD i 0 else x.getD i 0 := by
  simp only [randomizeSoft, List.getD_eq_getElem?_getD, List.getElem?_zipWith]
  rw [List.getElem?_eq_getElem (by omega : i < x.length), List.getElem?_eq_getElem (by simpa using h)]
  rfl

@[simp] theorem prbs_length (P : Params) (n : Nat) (r : BitVec 9) : (prbs P n r).1.length = n := by
  induction n generalizing r with
  | zero => rfl
  | succ n ih => simp [prbs, ih]

/-- Generating n bits and then m from the register they leave is generating n + m (46_interleave_randomize_prbs.md
R237). -/
theorem prbs_add (P : Params) (n m : Nat) (r : BitVec 9) :
    prbs P (n + m) r = ((prbs P n r).1 ++ (prbs P m (prbs P n r).2).1, (prbs P m (prbs P n r).2).2) := by
  induction n generalizing r with
  | zero => simp [prbs]
  | succ n ih => rw [Nat.succ_add, prbs, ih]; simp [prbs]

/-! ## The LSF check (Machine/Lsf.lean) -/

/-- The TYPE field of an LSF read as a number. -/
theorem lsfType_toNat (L : Bytes) : (lsfType L).toNat = beNat (slice L 12 14) := by
  rw [lsfType, BitVec.toNat_ofNat, Nat.mod_eq_of_lt]
  refine Nat.lt_of_lt_of_le (beNat_lt _) (Nat.pow_le_pow_right (by omega) (?_ : _ ≤ 2))
  rw [slice_length]
  omega

/-- `detect` by the number of the TYPE value (43_type.md R162). -/
theorem detect_eq (t : BitVec 16) : detect t = if t.toNat / 4096 = 0 then .v2 else .v3 := by
  have : t.extractLsb' 12 4 = 0 ↔ t.toNat / 4096 = 0 := by
    have h := t.isLt
    rw [← BitVec.toNat_inj]
    simp [BitVec.extractLsb'_toNat, Nat.shiftRight_eq_div_pow]
    omega
  simp only [detect, this]

/-- What `lsf_check` answers (47_lsf_meta.md R251). -/
theorem State.lsfCheck_eq (s : State) (L : Bytes) : s.lsfCheck L = lsfVerdict s.v2En s.v3En L := by
  unfold State.lsfCheck lsfVerdict State.versionCheck
  rw [detect_eq, lsfType_toNat]
  split
  · rfl
  · split <;> rfl

end Sys2Proof.Machine
end

