-- ==== Sys2Proof/Laws/Collectors.lean ====
section
/-! SUPPORT. What the three collectors' shared operations can do, each said once with its guards. -/

namespace Sys2Proof.Machine

/-! ## The LICH collector (Machine/Lich.lean) -/

/-- The collector a chunk of stream `sid` meets: emptied and keyed anew for a new stream (48_stream_packet_ip.md
R282). -/
theorem LichCollector.forStream_cases (l : LichCollector) (sid : BitVec 16) :
    ((l.sidValid = false ∨ sid ≠ l.sid) ∧ l.forStream sid = LichCollector.keyed sid)
    ∨ (l.sidValid = true ∧ sid = l.sid ∧ l.forStream sid = l) := by
  unfold LichCollector.forStream
  split
  · exact .inl ⟨‹_›, rfl⟩
  · rename_i h
    refine .inr ⟨?_, ?_, rfl⟩
    · cases hv : l.sidValid
      · exact absurd (.inl hv) h
      · rfl
    · exact Classical.not_not.1 fun hs => h (.inr hs)

/-- Everything `lich_accept` can do (48_stream_packet_ip.md R282). -/
theorem lichAccept_cases (l0 : LichCollector) (D : BitVec 40) (k : Fin 6) (m : Word) (sid : BitVec 16) :
    let l := l0.forStream sid
    (l.slots[k].valid = false ∧ lichAccept l0 D k m sid = (l.put k D m, .new))
    ∨ (l.slots[k].valid = true ∧ l.slots[k].data = D ∧ lichAccept l0 D k m sid = (l, .identical))
    ∨ (l.slots[k].valid = true ∧ l.slots[k].data ≠ D ∧ m < l.slots[k].metric
        ∧ lichAccept l0 D k m sid = (l.put k D m, .replaced))
    ∨ (l.slots[k].valid = true ∧ l.slots[k].data ≠ D ∧ ¬ m < l.slots[k].metric
        ∧ lichAccept l0 D k m sid = (l, .rejected)) := by
  intro l
  by_cases h1 : l.slots[k].valid = false
  · exact .inl ⟨h1, by simp only [lichAccept]; rw [if_pos h1]⟩
  · have h1' : l.slots[k].valid = true := by simpa using h1
    by_cases h2 : l.slots[k].data = D
    · exact .inr (.inl ⟨h1', h2, by simp only [lichAccept]; rw [if_neg h1, if_pos h2]⟩)
    · by_cases h3 : m < l.slots[k].metric
      · exact .inr (.inr (.inl ⟨h1', h2, h3, by simp only [lichAccept]; rw [if_neg h1, if_neg h2, if_pos h3]⟩))
      · exact .inr (.inr (.inr ⟨h1', h2, h3, by simp only [lichAccept]; rw [if_neg h1, if_neg h2, if_neg h3]⟩))

/-- What a soft-decoded unit does: nothing where it is bad, `lich_accept` where it is not (48_stream_packet_ip.md
R288). -/
theorem offerLich_cases (P : Params) (l : LichCollector) (d : LichDecoded) (sid : BitVec 16) :
    (d.bad = true ∧ offerLich P l d sid = (l, .dropped))
    ∨ (d.bad = false ∧ offerLich P l d sid
        = lichAccept l (chunkOf P d.unit) (Fin.ofNat 6 d.ctr.toNat) (BitVec.ofNat 32 d.metric) sid) := by
  unfold offerLich
  cases h : d.bad
  · exact .inr ⟨rfl, by simp⟩
  · exact .inl ⟨rfl, by simp⟩

/-! ## The packet reassembler (Machine/Packet.lean) -/

/-- Everything `pkt_accept` can do with a chunk that is not the last (48_stream_packet_ip.md R291). -/
theorem acceptMiddleChunk_cases (p : PacketReassembler) (B : Bytes) (c : Nat) :
    (p.active = true ∧ c + 1 = p.exp.toNat ∧ slice B 0 25 = p.bytes (25 * c) (25 * c + 25)
        ∧ acceptMiddleChunk p B c = (p, .ok .duplicate))
    ∨ (p.active = true ∧ c + 1 = p.exp.toNat ∧ slice B 0 25 ≠ p.bytes (25 * c) (25 * c + 25)
        ∧ acceptMiddleChunk p B c = (p.drop, .error (.reassembly .dupMismatch)))
    ∨ (¬ (p.active = true ∧ c + 1 = p.exp.toNat) ∧ c = p.exp.toNat ∧ acceptMiddleChunk p B c = (p.store B c, .ok .stored))
    ∨ (¬ (p.active = true ∧ c + 1 = p.exp.toNat) ∧ c = 0 ∧ c ≠ p.exp.toNat
        ∧ acceptMiddleChunk p B c = (p.drop.store B 0, .ok .restarted))
    ∨ (¬ (p.active = true ∧ c + 1 = p.exp.toNat) ∧ c ≠ 0 ∧ p.exp.toNat < c
        ∧ acceptMiddleChunk p B c = (p.drop, .error (.reassembly .gap)))
    ∨ (¬ (p.active = true ∧ c + 1 = p.exp.toNat) ∧ c ≠ 0 ∧ c < p.exp.toNat
        ∧ acceptMiddleChunk p B c = (p.drop, .error (.reassembly .outOfOrder))) := by
  unfold acceptMiddleChunk
  by_cases h1 : p.active = true ∧ c + 1 = p.exp.toNat
  · rw [if_pos h1]
    by_cases h2 : slice B 0 25 = p.bytes (25 * c) (25 * c + 25)
    · exact .inl ⟨h1.1, h1.2, h2, if_pos h2⟩
    · exact .inr (.inl ⟨h1.1, h1.2, h2, if_neg h2⟩)
  · rw [if_neg h1]
    by_cases h2 : c = p.exp.toNat
    · exact .inr (.inr (.inl ⟨h1, h2, if_pos h2⟩))
    · rw [if_neg h2]
      by_cases h3 : c = 0
      · exact .inr (.inr (.inr (.inl ⟨h1, h3, h2, if_pos h3⟩)))
      · rw [if_neg h3]
        by_cases h4 : c > p.exp.toNat
        · exact .inr (.inr (.inr (.inr (.inl ⟨h1, h3, h4, if_pos h4⟩))))
        · exact .inr (.inr (.inr (.inr (.inr ⟨h1, h3, by omega, if_neg h4⟩))))

/-- Everything `pkt_accept` can do with the last chunk: whatever comes of it, the packet in progress is dropped
(48_stream_packet_ip.md R291). -/
theorem acceptLastChunk_cases (p : PacketReassembler) (B : Bytes) (c : Nat) :
    let Q := p.bytes 0 (25 * p.exp.toNat) ++ slice B 0 c
    ((c = 0 ∨ 25 < c) ∧ acceptLastChunk p B c = (p.drop, .error (.reassembly .badCount)))
    ∨ (0 < c ∧ c ≤ 25 ∧ Q.length < 3 ∧ acceptLastChunk p B c = (p.drop, .error (.reassembly .short)))
    ∨ (0 < c ∧ c ≤ 25 ∧ 3 ≤ Q.length ∧ packetCrcOk Q = true ∧ acceptLastChunk p B c = (p.drop, .ok (.complete Q)))
    ∨ (0 < c ∧ c ≤ 25 ∧ 3 ≤ Q.length ∧ packetCrcOk Q = false ∧ acceptLastChunk p B c = (p.drop, .error .crcMismatch)) := by
  intro Q
  have hrun : acceptLastChunk p B c =
      if c = 0 ∨ 25 < c then (p.drop, .error (.reassembly .badCount))
      else if Q.length < 3 then (p.drop, .error (.reassembly .short))
      else if packetCrcOk Q = true then (p.drop, .ok (.complete Q))
      else (p.drop, .error .crcMismatch) := rfl
  rw [hrun]
  by_cases h1 : c = 0 ∨ 25 < c
  · exact .inl ⟨h1, if_pos h1⟩
  · rw [if_neg h1]
    by_cases h2 : Q.length < 3
    · exact .inr (.inl ⟨by omega, by omega, h2, if_pos h2⟩)
    · rw [if_neg h2]
      cases h3 : packetCrcOk Q
      · exact .inr (.inr (.inr ⟨by omega, by omega, by omega, rfl, if_neg Bool.false_ne_true⟩))
      · exact .inr (.inr (.inl ⟨by omega, by omega, by omega, rfl, if_pos rfl⟩))

/-! ## The text collector (Machine/TextMeta.lean) -/

/-- What happens after a block was stored (47_lsf_meta.md R258). -/
theorem TextCollector.settle_cases (c : TextCollector) (a : TextAction) :
    (c.next = c.cnt ∧ c.settle a = (c.cleared, .ok (.complete (trimEnd 0 (c.bytes 0 (13 * c.cnt.toNat))))))
    ∨ (c.next ≠ c.cnt ∧ c.settle a = (c, .ok a)) := by
  unfold TextCollector.settle
  by_cases h : c.next = c.cnt
  · exact .inl ⟨h, if_pos h⟩
  · exact .inr ⟨h, if_neg h⟩

/-- Everything `text_accept` can do, up to what `settle_cases` says of a stored block (47_lsf_meta.md R258). -/
theorem textAccept_cases (P : Params) (c : TextCollector) (B : Bytes) :
    let cc : BitVec 4 := (B.getD 0 0).extractLsb' 4 4
    let p : Int := ((B.getD 0 0).extractLsb' 0 4).toNat - P.textIndexBase
    let repeated := c.active = true ∧ cc = c.cnt ∧ p.toNat + 1 = c.next.toNat
      ∧ slice B 1 14 = c.bytes (13 * p.toNat) (13 * p.toNat + 13)
    let continues := c.active = true ∧ cc = c.cnt ∧ p.toNat = c.next.toNat
    ((cc = 0 ∨ p < 0 ∨ p ≥ cc.toNat) ∧ textAccept P c B = (c.cleared, .error (.reassembly .badCount)))
    ∨ (¬ (cc = 0 ∨ p < 0 ∨ p ≥ cc.toNat) ∧
        ((repeated ∧ textAccept P c B = (c, .ok .duplicate))
        ∨ (¬ repeated ∧ continues ∧ textAccept P c B = (c.store B p.toNat).settle .stored)
        ∨ (¬ repeated ∧ ¬ continues ∧ p.toNat = 0
            ∧ textAccept P c B = ((c.begin cc).store B 0).settle (if c.active then .restarted else .stored))
        ∨ (¬ repeated ∧ ¬ continues ∧ p.toNat ≠ 0
            ∧ textAccept P c B = (c.cleared, .error (.reassembly .outOfOrder))))) := by
  intro cc p repeated continues
  simp only [textAccept]
  by_cases h1 : cc = 0 ∨ p < 0 ∨ p ≥ cc.toNat
  · exact .inl ⟨h1, if_pos h1⟩
  · refine .inr ⟨h1, ?_⟩
    rw [if_neg h1]
    by_cases h2 : repeated
    · exact .inl ⟨h2, if_pos h2⟩
    · rw [if_neg h2]
      by_cases h3 : continues
      · exact .inr (.inl ⟨h2, h3, if_pos h3⟩)
      · rw [if_neg h3]
        by_cases h4 : p.toNat = 0
        · exact .inr (.inr (.inl ⟨h2, h3, h4, if_pos h4⟩))
        · exact .inr (.inr (.inr ⟨h2, h3, h4, if_neg h4⟩))

end Sys2Proof.Machine
end

