-- ==== Sys2Proof/Laws/Host.lean ====
section
/-! SUPPORT. What the registers read as (Machine/Flags.lean), and what the host port and one step can do
(Machine/HostPort.lean, Machine/Step.lean), each said once. -/

namespace Sys2Proof.Machine

/-! ## The registers as the host reads them, as numbers -/

/-- STATUS as a number (10_state.md R26). -/
theorem State.statusWord_toNat (s : State) : s.statusWord.toNat = s.cmd.toNat % 2 ^ 8 * 2 ^ 24
    + s.subField.toNat * 2 ^ 16 + s.errField.toNat * 2 ^ 8 + s.errFlag.toNat * 8 + s.viol.toNat * 4 + s.done.toNat * 2
    + s.busy.toNat := by
  simp only [State.statusWord, State.lastop, toNat_fieldAbove, BitVec.toNat_ofBool, BitVec.extractLsb'_toNat,
    BitVec.toNat_ofNat, Nat.shiftRight_zero]
  omega

/-- LICH_STAT as a number (10_state.md R28). -/
theorem LichCollector.stat_toNat (l : LichCollector) :
    l.stat.toNat = l.sid.toNat * 2 ^ 16 + l.sidValid.toNat * 2 ^ 8 + validBitmap l := by
  have h : l.bitmap.toNat = validBitmap l := by
    simp only [LichCollector.bitmap, validBitmap, toNat_fieldAbove, BitVec.toNat_ofBool,
      show List.finRange 6 = [0, 1, 2, 3, 4, 5] from rfl, List.map_cons, List.map_nil, List.sum_cons, List.sum_nil]
    have hb (b : Bool) (k : Nat) : (if b = true then 2 ^ k else 0) = b.toNat * 2 ^ k := by cases b <;> simp
    simp only [hb]
    simp
    ring
  simp only [LichCollector.stat, toNat_fieldAbove, BitVec.toNat_ofBool, BitVec.toNat_ofNat, h]
  omega

/-- PKT_STAT as a number; EXP is at most 32 in every legal state (10_state.md R29). -/
theorem PacketReassembler.stat_toNat (p : PacketReassembler) (h : p.exp.toNat ≤ 32) :
    p.stat.toNat = 25 * p.exp.toNat * 2 ^ 16 + p.exp.toNat * 2 ^ 8 + p.active.toNat := by
  simp only [PacketReassembler.stat, toNat_fieldAbove, BitVec.toNat_ofBool, BitVec.toNat_ofNat]
  omega

/-- TEXT_STAT as a number (10_state.md R30). -/
theorem TextCollector.stat_toNat (c : TextCollector) :
    c.stat.toNat = 13 * c.next.toNat * 2 ^ 16 + c.next.toNat * 2 ^ 8 + c.cnt.toNat * 2 ^ 4 + c.active.toNat := by
  simp only [TextCollector.stat, toNat_fieldAbove, BitVec.toNat_ofBool, BitVec.toNat_ofNat]
  omega
/-! ## Host events and steps -/

/-- Everything a host read can do. -/
theorem hostRead_cases (addr : BitVec 12) (width : Nat) (s : State) :
    (s.inReset = true ∧ hostRead addr width s = s.answerFree fun v => .data (junkOf width v))
    ∨ (s.inReset = false ∧ locate addr width = none ∧ hostRead addr width s = s.answerFree .readError)
    ∨ ∃ l, s.inReset = false ∧ locate addr width = some l
        ∧ ((s.busy = true ∧ l.exactWhileBusy = false
              ∧ hostRead addr width s = s.answerFree fun v => .data (junkOf width v))
          ∨ ((s.busy = false ∨ l.exactWhileBusy = true) ∧ hostRead addr width s = s.answer (.data (s.readLoc l)))) := by
  unfold hostRead
  cases hr : s.inReset
  · cases hl : locate addr width with
    | none => exact .inr (.inl ⟨rfl, rfl, rfl⟩)
    | some l =>
      refine .inr (.inr ⟨l, rfl, rfl, ?_⟩)
      cases hb : s.busy <;> cases he : l.exactWhileBusy <;> simp [he]
  · exact .inl ⟨rfl, rfl⟩

/-- Everything a host write can do. -/
theorem hostWrite_cases (addr : BitVec 12) (width : Nat) (v : Word) (s : State) :
    (s.inReset = true ∧ hostWrite addr width v s = s.answer .written)
    ∨ (s.inReset = false ∧ locate addr width = none ∧ hostWrite addr width v s = s.answer .writeError)
    ∨ ∃ l, s.inReset = false ∧ locate addr width = some l
        ∧ ((s.busy = true ∧ l ≠ .status ∧ hostWrite addr width v s = s.setViol.answer .written)
          ∨ ((s.busy = false ∨ l = .status) ∧ hostWrite addr width v s = (s.writeLoc v l).answer .written)) := by
  unfold hostWrite
  cases hr : s.inReset
  · cases hl : locate addr width with
    | none => exact .inr (.inl ⟨rfl, rfl, rfl⟩)
    | some l =>
      refine .inr (.inr ⟨l, rfl, rfl, ?_⟩)
      by_cases hls : l = .status
      · subst hls
        exact .inr ⟨.inr rfl, by simp⟩
      · cases hb : s.busy
        · exact .inr ⟨.inl rfl, by simp⟩
        · exact .inl ⟨rfl, hls, by simp [hls]⟩
  · exact .inl ⟨rfl, rfl⟩

/-- Everything the host's turn can do. -/
theorem hostTurn_cases (s : State) :
    (s.inbox = [] ∧ hostTurn s = s)
    ∨ ∃ e rest, s.inbox = e :: rest
        ∧ hostTurn s = hostEvent e { s with inbox := rest, countdown := s.countdown - 1 } := by
  unfold hostTurn
  cases h : s.inbox with
  | nil => exact .inl ⟨rfl, rfl⟩
  | cons e rest => exact .inr ⟨e, rest, rfl, rfl⟩

/-- Everything one step can do: the engine runs the latched word or completes it as illegal, or it is the host's
turn. -/
theorem step_cases (s : State) :
    (s.engineTurn = true ∧ ∃ i, decode s.cmd = .ok i ∧ step s = exec i s)
    ∨ (s.engineTurn = true ∧ ∃ e, decode s.cmd = .error e
        ∧ step s = .next (s.complete (some (.illegalCommand e))))
    ∨ (s.engineTurn = false ∧ step s = .next (hostTurn s)) := by
  unfold step
  cases ht : s.engineTurn
  · exact .inr (.inr ⟨rfl, rfl⟩)
  · cases hd : decode s.cmd with
    | ok i => exact .inl ⟨rfl, i, rfl, by simp [engineStep, hd]⟩
    | error e =>
      refine .inr (.inl ⟨rfl, e, rfl, ?_⟩)
      simp [engineStep, hd]
      rfl

end Sys2Proof.Machine
end

