-- ==== Sys2Proof/Laws/PerInstr.lean ====
section
/-! SUPPORT. One lemma per command: the word `encode` gives it lies in the command's row of 30_encoding.md R101, and
each field of the word holds the command's operand (R90). -/

namespace Sys2Proof

/-! ## The fields of a command word -/

/-- Each bit of a command word (30_encoding.md R90). -/
theorem commandWord_getLsbD (len : BitVec 16) (soft : Bool) (sched : BitVec 4) (opc : BitVec 8) (i : Nat) :
    (commandWord len soft sched opc).getLsbD i
      = if i < 8 then opc.getLsbD i else if i < 12 then sched.getLsbD (i - 8)
        else if i < 13 then soft else if i < 16 then false else len.getLsbD (i - 16) := by
  unfold commandWord
  simp only [BitVec.getLsbD_append, BitVec.getLsbD_ofBool]
  by_cases h8 : i < 8
  · simp [h8, show i < 3 + (1 + (4 + 8)) by omega, show i < 1 + (4 + 8) by omega, show i < 4 + 8 by omega]
  · by_cases h12 : i < 12
    · simp [h8, h12, show i < 3 + (1 + (4 + 8)) by omega, show i < 1 + (4 + 8) by omega]
    · by_cases h13 : i < 13
      · simp [show i = 12 by omega]
      · by_cases h16 : i < 16
        · simp [h8, h12, h13, h16]
        · simp [h8, h12, h13, h16]

/-- Each field of a command word (30_encoding.md R90). -/
theorem commandWord_fields (len : BitVec 16) (soft : Bool) (sched : BitVec 4) (opc : BitVec 8) :
    opcField (commandWord len soft sched opc) = opc ∧ schedField (commandWord len soft sched opc) = sched
    ∧ softField (commandWord len soft sched opc) = soft ∧ reservedField (commandWord len soft sched opc) = 0
    ∧ lenField (commandWord len soft sched opc) = len := by
  refine ⟨?_, ?_, ?_, ?_, ?_⟩
  · refine BitVec.eq_of_getLsbD_eq fun i hi => ?_
    simp [opcField, commandWord_getLsbD, hi]
  · refine BitVec.eq_of_getLsbD_eq fun i hi => ?_
    simp [schedField, commandWord_getLsbD, hi]
    omega
  · exact commandWord_getLsbD len soft sched opc 12
  · refine BitVec.eq_of_getLsbD_eq fun i hi => ?_
    simp only [reservedField, BitVec.getLsbD_extractLsb', commandWord_getLsbD]
    rw [if_neg (by omega), if_neg (by omega), if_neg (by omega), if_pos (by omega)]
    simp
  · refine BitVec.eq_of_getLsbD_eq fun i hi => ?_
    simp only [lenField, BitVec.getLsbD_extractLsb', commandWord_getLsbD]
    rw [if_neg (by omega), if_neg (by omega), if_neg (by omega), if_neg (by omega)]
    simp [hi]

/-- The masks of R101 keep every bit of a command word that its row fixes. -/
theorem commandWord_mask_len (len : BitVec 16) (opc : BitVec 8) :
    commandWord len false 0 opc &&& 0x0000FFFF = commandWord 0 false 0 opc := by
  refine BitVec.eq_of_getLsbD_eq fun i hi => ?_
  rw [BitVec.getLsbD_and, commandWord_getLsbD, commandWord_getLsbD]
  interval_cases i <;> simp

theorem commandWord_mask_len_sched (len : BitVec 16) (sched : BitVec 4) (opc : BitVec 8) :
    commandWord len false sched opc &&& 0x0000F0FF = commandWord 0 false 0 opc := by
  refine BitVec.eq_of_getLsbD_eq fun i hi => ?_
  rw [BitVec.getLsbD_and, commandWord_getLsbD, commandWord_getLsbD]
  interval_cases i <;> simp

theorem commandWord_mask_len_soft (len : BitVec 16) (soft : Bool) (opc : BitVec 8) :
    commandWord len soft 0 opc &&& 0x0000EFFF = commandWord 0 false 0 opc := by
  refine BitVec.eq_of_getLsbD_eq fun i hi => ?_
  rw [BitVec.getLsbD_and, commandWord_getLsbD, commandWord_getLsbD]
  interval_cases i <;> simp

/-! ## One lemma per command -/

/-- The columns "match" and "mask" of 30_encoding.md R101, as printed. -/
def Laws.EncodingRow.row : Instr → Word × Word
  | .nop => (0x00000000, 0xFFFFFFFF)
  | .clear => (0x00000001, 0xFFFFFFFF)
  | .crc16 _ => (0x00000008, 0x0000FFFF)
  | .crc16Chk _ => (0x00000009, 0x0000FFFF)
  | .b40Enc _ => (0x00000010, 0x0000FFFF)
  | .b40Dec => (0x00000011, 0xFFFFFFFF)
  | .b40Decb => (0x00000012, 0xFFFFFFFF)
  | .typeBv2 => (0x00000018, 0xFFFFFFFF)
  | .typePv2 => (0x00000019, 0xFFFFFFFF)
  | .typeBv3 => (0x0000001A, 0xFFFFFFFF)
  | .typePv3 => (0x0000001B, 0xFFFFFFFF)
  | .typeDet => (0x0000001C, 0xFFFFFFFF)
  | .golayEnc => (0x00000020, 0xFFFFFFFF)
  | .golayDec => (0x00000021, 0xFFFFFFFF)
  | .golaySdec => (0x00000022, 0xFFFFFFFF)
  | .lichEnc => (0x00000023, 0xFFFFFFFF)
  | .lichSdec => (0x00000024, 0xFFFFFFFF)
  | .convEnc _ _ => (0x00000028, 0x0000F0FF)
  | .punct _ _ => (0x00000029, 0x0000F0FF)
  | .viterbi _ _ => (0x0000002A, 0x0000F0FF)
  | .intlv _ _ => (0x00000030, 0x0000EFFF)
  | .rand _ _ => (0x00000031, 0x0000EFFF)
  | .prbsGen _ => (0x00000032, 0x0000FFFF)
  | .berCnt _ => (0x00000033, 0x0000FFFF)
  | .lsfBuild => (0x00000040, 0xFFFFFFFF)
  | .lsfParse => (0x00000041, 0xFFFFFFFF)
  | .metaPosPack => (0x00000042, 0xFFFFFFFF)
  | .metaPosUnpack => (0x00000043, 0xFFFFFFFF)
  | .metaEcsPack => (0x00000044, 0xFFFFFFFF)
  | .metaEcsUnpack => (0x00000045, 0xFFFFFFFF)
  | .aesivCtr => (0x00000046, 0xFFFFFFFF)
  | .textPack _ => (0x00000047, 0x0000FFFF)
  | .textReset => (0x00000048, 0xFFFFFFFF)
  | .textAccept => (0x00000049, 0xFFFFFFFF)
  | .lichChunk => (0x00000050, 0xFFFFFFFF)
  | .lichReset => (0x00000051, 0xFFFFFFFF)
  | .lichAccept => (0x00000052, 0xFFFFFFFF)
  | .lichAssemble => (0x00000053, 0xFFFFFFFF)
  | .lichRx => (0x00000054, 0xFFFFFFFF)
  | .pktBuild _ => (0x00000058, 0x0000FFFF)
  | .pktChunk _ => (0x00000059, 0x0000FFFF)
  | .pktReset => (0x0000005A, 0xFFFFFFFF)
  | .pktAccept => (0x0000005B, 0xFFFFFFFF)
  | .pktFlush => (0x0000005C, 0xFFFFFFFF)
  | .ipBuild => (0x00000060, 0xFFFFFFFF)
  | .ipParse => (0x00000061, 0xFFFFFFFF)
  | .lsfTx => (0x00000070, 0xFFFFFFFF)
  | .lsfRx => (0x00000071, 0xFFFFFFFF)
  | .strTx => (0x00000072, 0xFFFFFFFF)
  | .strRx => (0x00000073, 0xFFFFFFFF)
  | .pktTx => (0x00000074, 0xFFFFFFFF)
  | .pktRx => (0x00000075, 0xFFFFFFFF)
  | .bertTx => (0x00000076, 0xFFFFFFFF)
  | .bertRx => (0x00000077, 0xFFFFFFFF)

/-- The word of the command lies in its row, and its fields hold the opcode, the operands and zeros. -/
def Laws.EncodingRow.Statement (i : Instr) : Prop :=
  encode i &&& (Laws.EncodingRow.row i).2 = (Laws.EncodingRow.row i).1
  ∧ opcField (encode i) = i.opcode ∧ schedField (encode i) = i.schedOperand ∧ softField (encode i) = i.softOperand
  ∧ reservedField (encode i) = 0 ∧ lenField (encode i) = i.lenOperand

theorem Laws.EncodingRow.nop :
    Laws.EncodingRow.Statement (.nop) :=
  ⟨rfl, commandWord_fields _ _ _ _⟩

theorem Laws.EncodingRow.clear :
    Laws.EncodingRow.Statement (.clear) :=
  ⟨rfl, commandWord_fields _ _ _ _⟩

theorem Laws.EncodingRow.crc16 (len : BitVec 16) :
    Laws.EncodingRow.Statement (.crc16 len) :=
  ⟨(commandWord_mask_len len 0x08).trans rfl, commandWord_fields _ _ _ _⟩

theorem Laws.EncodingRow.crc16Chk (len : BitVec 16) :
    Laws.EncodingRow.Statement (.crc16Chk len) :=
  ⟨(commandWord_mask_len len 0x09).trans rfl, commandWord_fields _ _ _ _⟩

theorem Laws.EncodingRow.b40Enc (len : BitVec 16) :
    Laws.EncodingRow.Statement (.b40Enc len) :=
  ⟨(commandWord_mask_len len 0x10).trans rfl, commandWord_fields _ _ _ _⟩

theorem Laws.EncodingRow.b40Dec :
    Laws.EncodingRow.Statement (.b40Dec) :=
  ⟨rfl, commandWord_fields _ _ _ _⟩

theorem Laws.EncodingRow.b40Decb :
    Laws.EncodingRow.Statement (.b40Decb) :=
  ⟨rfl, commandWord_fields _ _ _ _⟩

theorem Laws.EncodingRow.typeBv2 :
    Laws.EncodingRow.Statement (.typeBv2) :=
  ⟨rfl, commandWord_fields _ _ _ _⟩

theorem Laws.EncodingRow.typePv2 :
    Laws.EncodingRow.Statement (.typePv2) :=
  ⟨rfl, commandWord_fields _ _ _ _⟩

theorem Laws.EncodingRow.typeBv3 :
    Laws.EncodingRow.Statement (.typeBv3) :=
  ⟨rfl, commandWord_fields _ _ _ _⟩

theorem Laws.EncodingRow.typePv3 :
    Laws.EncodingRow.Statement (.typePv3) :=
  ⟨rfl, commandWord_fields _ _ _ _⟩

theorem Laws.EncodingRow.typeDet :
    Laws.EncodingRow.Statement (.typeDet) :=
  ⟨rfl, commandWord_fields _ _ _ _⟩

theorem Laws.EncodingRow.golayEnc :
    Laws.EncodingRow.Statement (.golayEnc) :=
  ⟨rfl, commandWord_fields _ _ _ _⟩

theorem Laws.EncodingRow.golayDec :
    Laws.EncodingRow.Statement (.golayDec) :=
  ⟨rfl, commandWord_fields _ _ _ _⟩

theorem Laws.EncodingRow.golaySdec :
    Laws.EncodingRow.Statement (.golaySdec) :=
  ⟨rfl, commandWord_fields _ _ _ _⟩

theorem Laws.EncodingRow.lichEnc :
    Laws.EncodingRow.Statement (.lichEnc) :=
  ⟨rfl, commandWord_fields _ _ _ _⟩

theorem Laws.EncodingRow.lichSdec :
    Laws.EncodingRow.Statement (.lichSdec) :=
  ⟨rfl, commandWord_fields _ _ _ _⟩

theorem Laws.EncodingRow.convEnc (len : BitVec 16) (sched : BitVec 4) :
    Laws.EncodingRow.Statement (.convEnc len sched) :=
  ⟨(commandWord_mask_len_sched len sched 0x28).trans rfl, commandWord_fields _ _ _ _⟩

theorem Laws.EncodingRow.punct (len : BitVec 16) (sched : BitVec 4) :
    Laws.EncodingRow.Statement (.punct len sched) :=
  ⟨(commandWord_mask_len_sched len sched 0x29).trans rfl, commandWord_fields _ _ _ _⟩

theorem Laws.EncodingRow.viterbi (len : BitVec 16) (sched : BitVec 4) :
    Laws.EncodingRow.Statement (.viterbi len sched) :=
  ⟨(commandWord_mask_len_sched len sched 0x2A).trans rfl, commandWord_fields _ _ _ _⟩

theorem Laws.EncodingRow.intlv (len : BitVec 16) (soft : Bool) :
    Laws.EncodingRow.Statement (.intlv len soft) :=
  ⟨(commandWord_mask_len_soft len soft 0x30).trans rfl, commandWord_fields _ _ _ _⟩

theorem Laws.EncodingRow.rand (len : BitVec 16) (soft : Bool) :
    Laws.EncodingRow.Statement (.rand len soft) :=
  ⟨(commandWord_mask_len_soft len soft 0x31).trans rfl, commandWord_fields _ _ _ _⟩

theorem Laws.EncodingRow.prbsGen (len : BitVec 16) :
    Laws.EncodingRow.Statement (.prbsGen len) :=
  ⟨(commandWord_mask_len len 0x32).trans rfl, commandWord_fields _ _ _ _⟩

theorem Laws.EncodingRow.berCnt (len : BitVec 16) :
    Laws.EncodingRow.Statement (.berCnt len) :=
  ⟨(commandWord_mask_len len 0x33).trans rfl, commandWord_fields _ _ _ _⟩

theorem Laws.EncodingRow.lsfBuild :
    Laws.EncodingRow.Statement (.lsfBuild) :=
  ⟨rfl, commandWord_fields _ _ _ _⟩

theorem Laws.EncodingRow.lsfParse :
    Laws.EncodingRow.Statement (.lsfParse) :=
  ⟨rfl, commandWord_fields _ _ _ _⟩

theorem Laws.EncodingRow.metaPosPack :
    Laws.EncodingRow.Statement (.metaPosPack) :=
  ⟨rfl, commandWord_fields _ _ _ _⟩

theorem Laws.EncodingRow.metaPosUnpack :
    Laws.EncodingRow.Statement (.metaPosUnpack) :=
  ⟨rfl, commandWord_fields _ _ _ _⟩

theorem Laws.EncodingRow.metaEcsPack :
    Laws.EncodingRow.Statement (.metaEcsPack) :=
  ⟨rfl, commandWord_fields _ _ _ _⟩

theorem Laws.EncodingRow.metaEcsUnpack :
    Laws.EncodingRow.Statement (.metaEcsUnpack) :=
  ⟨rfl, commandWord_fields _ _ _ _⟩

theorem Laws.EncodingRow.aesivCtr :
    Laws.EncodingRow.Statement (.aesivCtr) :=
  ⟨rfl, commandWord_fields _ _ _ _⟩

theorem Laws.EncodingRow.textPack (len : BitVec 16) :
    Laws.EncodingRow.Statement (.textPack len) :=
  ⟨(commandWord_mask_len len 0x47).trans rfl, commandWord_fields _ _ _ _⟩

theorem Laws.EncodingRow.textReset :
    Laws.EncodingRow.Statement (.textReset) :=
  ⟨rfl, commandWord_fields _ _ _ _⟩

theorem Laws.EncodingRow.textAccept :
    Laws.EncodingRow.Statement (.textAccept) :=
  ⟨rfl, commandWord_fields _ _ _ _⟩

theorem Laws.EncodingRow.lichChunk :
    Laws.EncodingRow.Statement (.lichChunk) :=
  ⟨rfl, commandWord_fields _ _ _ _⟩

theorem Laws.EncodingRow.lichReset :
    Laws.EncodingRow.Statement (.lichReset) :=
  ⟨rfl, commandWord_fields _ _ _ _⟩

theorem Laws.EncodingRow.lichAccept :
    Laws.EncodingRow.Statement (.lichAccept) :=
  ⟨rfl, commandWord_fields _ _ _ _⟩

theorem Laws.EncodingRow.lichAssemble :
    Laws.EncodingRow.Statement (.lichAssemble) :=
  ⟨rfl, commandWord_fields _ _ _ _⟩

theorem Laws.EncodingRow.lichRx :
    Laws.EncodingRow.Statement (.lichRx) :=
  ⟨rfl, commandWord_fields _ _ _ _⟩

theorem Laws.EncodingRow.pktBuild (len : BitVec 16) :
    Laws.EncodingRow.Statement (.pktBuild len) :=
  ⟨(commandWord_mask_len len 0x58).trans rfl, commandWord_fields _ _ _ _⟩

theorem Laws.EncodingRow.pktChunk (len : BitVec 16) :
    Laws.EncodingRow.Statement (.pktChunk len) :=
  ⟨(commandWord_mask_len len 0x59).trans rfl, commandWord_fields _ _ _ _⟩

theorem Laws.EncodingRow.pktReset :
    Laws.EncodingRow.Statement (.pktReset) :=
  ⟨rfl, commandWord_fields _ _ _ _⟩

theorem Laws.EncodingRow.pktAccept :
    Laws.EncodingRow.Statement (.pktAccept) :=
  ⟨rfl, commandWord_fields _ _ _ _⟩

theorem Laws.EncodingRow.pktFlush :
    Laws.EncodingRow.Statement (.pktFlush) :=
  ⟨rfl, commandWord_fields _ _ _ _⟩

theorem Laws.EncodingRow.ipBuild :
    Laws.EncodingRow.Statement (.ipBuild) :=
  ⟨rfl, commandWord_fields _ _ _ _⟩

theorem Laws.EncodingRow.ipParse :
    Laws.EncodingRow.Statement (.ipParse) :=
  ⟨rfl, commandWord_fields _ _ _ _⟩

theorem Laws.EncodingRow.lsfTx :
    Laws.EncodingRow.Statement (.lsfTx) :=
  ⟨rfl, commandWord_fields _ _ _ _⟩

theorem Laws.EncodingRow.lsfRx :
    Laws.EncodingRow.Statement (.lsfRx) :=
  ⟨rfl, commandWord_fields _ _ _ _⟩

theorem Laws.EncodingRow.strTx :
    Laws.EncodingRow.Statement (.strTx) :=
  ⟨rfl, commandWord_fields _ _ _ _⟩

theorem Laws.EncodingRow.strRx :
    Laws.EncodingRow.Statement (.strRx) :=
  ⟨rfl, commandWord_fields _ _ _ _⟩

theorem Laws.EncodingRow.pktTx :
    Laws.EncodingRow.Statement (.pktTx) :=
  ⟨rfl, commandWord_fields _ _ _ _⟩

theorem Laws.EncodingRow.pktRx :
    Laws.EncodingRow.Statement (.pktRx) :=
  ⟨rfl, commandWord_fields _ _ _ _⟩

theorem Laws.EncodingRow.bertTx :
    Laws.EncodingRow.Statement (.bertTx) :=
  ⟨rfl, commandWord_fields _ _ _ _⟩

theorem Laws.EncodingRow.bertRx :
    Laws.EncodingRow.Statement (.bertRx) :=
  ⟨rfl, commandWord_fields _ _ _ _⟩

end Sys2Proof
end

