-- ==== Sys2Proof/Tests/Slice0.lean ====
section
/-! SUPPORT. The model's own tests: well-formedness, decoding from words written out of 30_encoding.md R90 and R101,
one step of each command on the vectors of 95_test_vectors.md, and a witness for each statement's hypotheses. -/

set_option maxRecDepth 20000

namespace Sys2Proof.Tests

open Sys2Proof.Machine

/-! ## Well-formedness (30_encoding.md R92) -/

theorem test_wellFormed_convEnc : Instr.wellFormed (.convEnc 8 4) = false
    ∧ Instr.wellFormed (.convEnc 65535 3) = true := by
  decide

theorem test_wellFormed_punct : Instr.wellFormed (.punct 0 15) = false
    ∧ Instr.wellFormed (.punct 0 0) = true := by decide

theorem test_wellFormed_viterbi : Instr.wellFormed (.viterbi 8 4) = false ∧ Instr.wellFormed (.viterbi 8 3) = true := by
  decide

/-! ## Decoding: one word for every command, written out from R90 and R101 (LEN 31:16, S 12, SCHED 11:8, OPC 7:0) -/

theorem test_decode_control :
    decode 0x00000000 = .ok .nop ∧ decode 0x00000001 = .ok .clear := by
  decide

theorem test_decode_crc :
    decode 0x00010008 = .ok (.crc16 1) ∧ decode 0x00010009 = .ok (.crc16Chk 1) := by
  decide

theorem test_decode_address :
    decode 0x00010010 = .ok (.b40Enc 1) ∧ decode 0x00000011 = .ok .b40Dec ∧ decode 0x00000012 = .ok .b40Decb := by
  decide

theorem test_decode_type :
    decode 0x00000018 = .ok .typeBv2 ∧ decode 0x00000019 = .ok .typePv2 ∧ decode 0x0000001A = .ok .typeBv3
    ∧ decode 0x0000001B = .ok .typePv3 ∧ decode 0x0000001C = .ok .typeDet := by
  decide

theorem test_decode_golay :
    decode 0x00000020 = .ok .golayEnc ∧ decode 0x00000021 = .ok .golayDec ∧ decode 0x00000022 = .ok .golaySdec
    ∧ decode 0x00000023 = .ok .lichEnc ∧ decode 0x00000024 = .ok .lichSdec := by
  decide

theorem test_decode_conv :
    decode 0x00010328 = .ok (.convEnc 1 3) ∧ decode 0x00010329 = .ok (.punct 1 3)
    ∧ decode 0x0001032A = .ok (.viterbi 1 3) := by
  decide

theorem test_decode_frameBits :
    decode 0x01701030 = .ok (.intlv 368 true) ∧ decode 0x01701031 = .ok (.rand 368 true)
    ∧ decode 0x00010032 = .ok (.prbsGen 1) ∧ decode 0x00010033 = .ok (.berCnt 1) := by
  decide

theorem test_decode_lsf :
    decode 0x00000040 = .ok .lsfBuild ∧ decode 0x00000041 = .ok .lsfParse ∧ decode 0x00000042 = .ok .metaPosPack
    ∧ decode 0x00000043 = .ok .metaPosUnpack ∧ decode 0x00000044 = .ok .metaEcsPack
    ∧ decode 0x00000045 = .ok .metaEcsUnpack ∧ decode 0x00000046 = .ok .aesivCtr
    ∧ decode 0x00010047 = .ok (.textPack 1) := by
  decide

theorem test_decode_text :
    decode 0x00000048 = .ok .textReset ∧ decode 0x00000049 = .ok .textAccept := by
  decide

theorem test_decode_lich :
    decode 0x00000050 = .ok .lichChunk ∧ decode 0x00000051 = .ok .lichReset ∧ decode 0x00000052 = .ok .lichAccept
    ∧ decode 0x00000053 = .ok .lichAssemble ∧ decode 0x00000054 = .ok .lichRx := by
  decide

theorem test_decode_packet :
    decode 0x00010058 = .ok (.pktBuild 1) ∧ decode 0x00010059 = .ok (.pktChunk 1)
    ∧ decode 0x0000005A = .ok .pktReset ∧ decode 0x0000005B = .ok .pktAccept ∧ decode 0x0000005C = .ok .pktFlush := by
  decide

theorem test_decode_ip :
    decode 0x00000060 = .ok .ipBuild ∧ decode 0x00000061 = .ok .ipParse := by
  decide

theorem test_decode_pipeline :
    decode 0x00000070 = .ok .lsfTx ∧ decode 0x00000071 = .ok .lsfRx ∧ decode 0x00000072 = .ok .strTx
    ∧ decode 0x00000073 = .ok .strRx ∧ decode 0x00000074 = .ok .pktTx ∧ decode 0x00000075 = .ok .pktRx
    ∧ decode 0x00000076 = .ok .bertTx ∧ decode 0x00000077 = .ok .bertRx := by
  decide

/-- One word of each family, bit by bit: LEN, reserved, S, SCHED, OPC (R90). -/
theorem test_decode_bits :
    decode (0b0000000000000000#16 ++ 0b000#3 ++ 0b0#1 ++ 0b0000#4 ++ 0b00000001#8) = .ok .clear
    ∧ decode (0b0000000000001011#16 ++ 0b000#3 ++ 0b0#1 ++ 0b0000#4 ++ 0b00001001#8) = .ok (.crc16Chk 11)
    ∧ decode (0b0000000000000101#16 ++ 0b000#3 ++ 0b0#1 ++ 0b0000#4 ++ 0b00010000#8) = .ok (.b40Enc 5)
    ∧ decode (0b0000000000000000#16 ++ 0b000#3 ++ 0b0#1 ++ 0b0000#4 ++ 0b00011100#8) = .ok .typeDet
    ∧ decode (0b0000000000000000#16 ++ 0b000#3 ++ 0b0#1 ++ 0b0000#4 ++ 0b00100001#8) = .ok .golayDec
    ∧ decode (0b0000000000001000#16 ++ 0b000#3 ++ 0b0#1 ++ 0b0011#4 ++ 0b00101000#8) = .ok (.convEnc 8 3)
    ∧ decode (0b0000000101110000#16 ++ 0b000#3 ++ 0b1#1 ++ 0b0000#4 ++ 0b00110001#8) = .ok (.rand 368 true)
    ∧ decode (0b0000000000000000#16 ++ 0b000#3 ++ 0b0#1 ++ 0b0000#4 ++ 0b01000000#8) = .ok .lsfBuild
    ∧ decode (0b0000000011000011#16 ++ 0b000#3 ++ 0b0#1 ++ 0b0000#4 ++ 0b01000111#8) = .ok (.textPack 195)
    ∧ decode (0b0000000000000000#16 ++ 0b000#3 ++ 0b0#1 ++ 0b0000#4 ++ 0b01010100#8) = .ok .lichRx
    ∧ decode (0b0000001100110110#16 ++ 0b000#3 ++ 0b0#1 ++ 0b0000#4 ++ 0b01011000#8) = .ok (.pktBuild 822)
    ∧ decode (0b0000000000000000#16 ++ 0b000#3 ++ 0b0#1 ++ 0b0000#4 ++ 0b01100001#8) = .ok .ipParse
    ∧ decode (0b0000000000000000#16 ++ 0b000#3 ++ 0b0#1 ++ 0b0000#4 ++ 0b01110011#8) = .ok .strRx := by
  decide

/-- The refusals of 95_test_vectors.md 3.1, and the order of the checks (R98). -/
theorem test_decode_refuses :
    decode 0x00000002 = .error .reservedOpcode ∧ decode 0x00010000 = .error .nonzeroField
    ∧ decode 0x000B2009 = .error .nonzeroField ∧ decode 0x00080428 = .error .badSched
    ∧ decode 0x00000110 = .error .nonzeroField ∧ decode 0xFFFF00FF = .error .reservedOpcode
    ∧ decode 0x00002428 = .error .nonzeroField ∧ decode 0x00001028 = .error .nonzeroField := by
  decide

/-- There are 54 rows and no two of them overlap (R101). -/
theorem test_rows_do_not_overlap :
    opMap.length = 54 ∧ opMap.Pairwise fun r q =>
      r.matchWord &&& r.mask &&& q.mask ≠ q.matchWord &&& r.mask &&& q.mask := by
  decide

/-! ## One step of each command, on the vectors of 95_test_vectors.md -/

/-- The reset state with these argument registers and these bytes of IBUF written. -/
def st (args : List Word) (ib : Bytes) : State :=
  { State.reset with arg := Vector.ofFn fun n => args.getD n.val 0, mem := Memory.writeBytes [] ibufBase ib }

/-- The state one step after the command word was accepted. -/
def run (w : Word) (s : State) : State :=
  match step (s.withCommand w) with
  | .next t => t
  | .fault _ => s
  | .refused _ => s

/-- Some result registers. -/
def regs (t : State) (ns : List (Fin 8)) : List Nat := ns.map fun n => (t.resReg n).toNat

/-- The first bytes of OBUF. -/
def obs (t : State) (n : Nat) : Bytes := (List.range n).map t.ob

/-- The soft image of packed bytes (95_test_vectors.md section 1). -/
def soft (B : Bytes) : Bytes := (bits B).map softBit

/-- `LSF_D28` (95_test_vectors.md section 1). -/
def lsfD28 : Bytes := [0x00, 0x00, 0x02, 0xF2, 0x4C, 0x99, 0x00, 0x00, 0x89, 0xAD, 0x6F, 0x80, 0x00, 0x05,
  0, 0, 0, 0, 0, 0, 0, 0, 0, 0, 0, 0, 0, 0]

/-- `LSF_D` (95_test_vectors.md section 1). -/
def lsfD : Bytes := lsfD28 ++ [0x39, 0x0B]

theorem test_nop : let t := run 0x00000000 (st [] [])
    t.statusWord = 0x00000002 ∧ t.cmdcnt = 1 := by
  decide

theorem test_clear : let t := run 0x00000001 { st [] [] with
      res := Vector.replicate 8 7, lich := { LichCollector.empty with sid := 0x1234, sidValid := true }
      pkt := { PacketReassembler.idle 0 with active := true, exp := 1 } }
    regs t [0, 1, 2, 3, 4, 5, 6, 7] = [0, 0, 0, 0, 0, 0, 0, 0] ∧ t.lich.stat = 0 ∧ t.pkt.stat = 0 ∧ t.text.stat = 0
    ∧ t.statusWord = 0x01000002 := by
  decide

theorem test_crc16 : let t := run 0x00010008 (st [] [0x41])
    regs t [0] = [0x206E] ∧ obs t 2 = [0x20, 0x6E] ∧ t.statusWord = 0x08000002 := by
  decide

theorem test_crc16_too_long : let t := run 0x04010008 (st [] [])
    regs t [0] = [0] ∧ t.statusWord = 0x0801010A := by
  decide

theorem test_crc16Chk_mismatch : let t := run 0x000B0009 (st [] [0x31, 0x32, 0x33, 0x34, 0x35, 0x36, 0x37, 0x38,
      0x39, 0x77, 0x2C])
    regs t [0, 1] = [0x772B, 0x772C] ∧ t.statusWord = 0x0900020A := by
  decide

theorem test_crc16Chk_short : let t := run 0x00010009 (st [] [0xFF])
    regs t [0, 1] = [0, 0] ∧ t.statusWord = 0x0901010A := by
  decide

theorem test_b40Enc : let t := run 0x00050010 (st [] [0x57, 0x32, 0x46, 0x42, 0x49])
    regs t [0, 1, 2] = [0x02F24C99, 0, 0] ∧ obs t 6 = [0x00, 0x00, 0x02, 0xF2, 0x4C, 0x99]
    ∧ t.statusWord = 0x10000002 := by
  decide

theorem test_b40Enc_hash : let t := run 0x00050010 (st [] [0x23, 0x54, 0x45, 0x53, 0x54])
    regs t [0, 1, 2] = [0x281E03B6, 0xEE6B, 1] ∧ t.statusWord = 0x10000002 := by
  decide

theorem test_b40Dec : let t := run 0x00000011 (st [0x0161AE1F] [])
    regs t [0, 2, 4, 5] = [5, 0, 0x0161AE1F, 0] ∧ obs t 5 = [0x4D, 0x53, 0x35, 0x31, 0x38]
    ∧ t.statusWord = 0x11000002 := by
  decide

theorem test_b40Dec_reserved : let t := run 0x00000011 (st [0x09000000, 0xF461] [])
    regs t [0, 2, 4, 5] = [0, 0, 0, 0] ∧ t.statusWord = 0x1106010A := by
  decide

theorem test_b40Decb : let t := run 0x00000012 (st [] [0x00, 0x00, 0x02, 0xF2, 0x4C, 0x99])
    regs t [0, 2] = [5, 0] ∧ obs t 5 = [0x57, 0x32, 0x46, 0x42, 0x49] ∧ t.statusWord = 0x12000002 := by
  decide

theorem test_typeBv2 : let t := run 0x00000018 (st [1, 3, 3, 3, 15] [])
    regs t [0] = [0x07FF] ∧ t.statusWord = 0x18000002 := by
  decide

theorem test_typeBv2_range : let t := run 0x00000018 (st [2, 0, 0, 0, 0] [])
    regs t [0] = [0] ∧ t.statusWord = 0x1805010A := by
  decide

theorem test_typePv2 : let t := run 0x00000019 (st [0xF800] [])
    regs t [0, 1, 2, 3, 4, 5, 6] = [0, 0, 0, 0, 0, 31, 1] ∧ t.statusWord = 0x19000002 := by
  decide

theorem test_typeBv3 : let t := run 0x0000001A (st [2, 0, 0, 3, 5] [])
    regs t [0] = [0x2035] ∧ t.statusWord = 0x1A000002 := by
  decide

theorem test_typePv3 : let t := run 0x0000001B (st [0x2035] [])
    regs t [0, 1, 2, 3, 4, 6] = [2, 0, 0, 3, 5, 1] ∧ t.statusWord = 0x1B000002 := by
  decide

theorem test_typeDet_v2 : let t := run 0x0000001C (st [0x0020] [])
    regs t [0, 1] = [0, 1] ∧ t.statusWord = 0x1C000002 := by
  decide

theorem test_typeDet_v3 : let t := run 0x0000001C (st [0x2050] [])
    regs t [0, 1] = [1, 15] ∧ t.statusWord = 0x1C000002 := by
  decide

theorem test_golayEnc : let t := run 0x00000020 (st [0xABC] [])
    regs t [0] = [0xABC23C] ∧ t.statusWord = 0x20000002 := by
  decide

theorem test_golayDec : let t := run 0x00000021 (st [0x001863] [])
    regs t [0, 1, 2] = [0x001, 2, 0x0018EB] ∧ t.statusWord = 0x21000002 := by
  decide

theorem test_golayDec_range : let t := run 0x00000021 (st [0x01000000] [])
    regs t [0, 1, 2] = [0, 0, 0] ∧ t.statusWord = 0x2105010A := by
  decide

/-- The metric of golay(0xFFF) and of golay(0) against 24 bytes of 128 and of 127 (95_test_vectors.md 3.6). -/
theorem test_golaySdec_metric : golayMetric (List.replicate 24 128) (golay hw 0xFFF) = 3048
    ∧ golayMetric (List.replicate 24 127) (golay hw 0) = 3048 := by
  decide

theorem test_lichEnc : let t := run 0x00000023 (st [] [0x12, 0x34, 0x56, 0x78, 0x9A, 0xBC])
    obs t 12 = [0x12, 0x30, 0xAC, 0x45, 0x6B, 0x6C, 0x78, 0x98, 0x10, 0xAB, 0xC2, 0x3C]
    ∧ t.statusWord = 0x23000002 := by
  decide

theorem test_convEnc : let t := run 0x00080228 (st [] [0xB2])
    regs t [0] = [22] ∧ obs t 3 = [0xD8, 0xF4, 0xD8] ∧ t.statusWord = 0x28000002 := by
  decide

theorem test_convEnc_too_long : let t := run 0x01FD0028 (st [] [])
    regs t [0] = [0] ∧ t.statusWord = 0x2801010A := by
  decide

theorem test_punct : let t := run 0x00180229 (st [] [0xD8, 0xFA, 0x6C])
    regs t [0] = [22] ∧ obs t 3 = [0xD8, 0xF4, 0xD8] ∧ t.statusWord = 0x29000002 := by
  decide

theorem test_viterbi : let t := run 0x0008002A (st [] (soft [0xD8, 0xFA, 0x6C]))
    regs t [0, 1, 2] = [0, 8, 24] ∧ obs t 1 = [0xB2] ∧ t.statusWord = 0x2A000002 := by
  decide

theorem test_viterbi_tie : let t := run 0x0002002A (st [] [0xFF, 0x00, 0xFF, 0xFF, 0xFF, 0x00, 0xFF, 0xFF, 0xFF,
      0x00, 0x00, 0x00])
    regs t [0] = [1530] ∧ obs t 1 = [0x80] ∧ t.statusWord = 0x2A000002 := by
  decide

theorem test_intlv : let t := run 0x01700030 (st [] (0x40 :: List.replicate 45 0))
    t.statusWord = 0x30000002 ∧ t.ob 17 = 0x40 ∧ t.ob 0 = 0x00 := by
  decide

theorem test_intlv_length : let t := run 0x00001030 (st [] [])
    t.statusWord = 0x3001010A := by
  decide

theorem test_rand : let t := run 0x01700031 (st [] (List.replicate 46 0))
    obs t 1 = [0xD6] ∧ t.statusWord = 0x31000002 ∧ t.ob 45 = 0xC3 := by
  decide

theorem test_rand_soft : let t := run 0x01701031 (st [] [0x80, 0x80, 0x80, 0x80])
    obs t 4 = [0x7F, 0x7F, 0x80, 0x7F] ∧ t.statusWord = 0x31000002 := by
  decide

theorem test_prbsGen : let t := run 0x00200032 (st [0x1FF] [])
    obs t 4 = [0x07, 0xBE, 0x2E, 0x64] ∧ t.statusWord = 0x32000002 := by
  decide

theorem test_prbsGen_zero : let t := run 0x00100032 (st [0] [])
    regs t [0] = [0] ∧ obs t 2 = [0x00, 0x00] ∧ t.statusWord = 0x32000002 := by
  decide

theorem test_berCnt : let t := run 0x00080033 { st [] [] with mem := [(0x400, 0xF0), (0x600, 0xFF)] }
    regs t [0, 1] = [4, 8] ∧ t.statusWord = 0x33000002 := by
  decide

theorem test_lsfBuild : let t := run 0x00000040 (st [] lsfD28)
    regs t [0] = [0x390B] ∧ t.statusWord = 0x40000002 ∧ obs t 30 = lsfD := by
  decide

theorem test_lsfParse : let t := run 0x00000041 (st [] lsfD)
    regs t [0, 1, 2, 3, 4, 5, 6, 7] = [0x0005, 0, 3, 0x390B, 0x02F24C99, 0, 0x89AD6F80, 0]
    ∧ t.statusWord = 0x41000002 := by
  decide

theorem test_lsfParse_v2_disabled : let t := run 0x00000041 { st [] lsfD with ctrl := 0b100 }
    regs t [0, 3] = [0x0005, 0x390B] ∧ t.statusWord = 0x4101060A := by
  decide

theorem test_metaPosPack : let t := run 0x00000042 (st [1, 2, 0x123456, 0xFFFFFFFF, 100, 359, 300] [])
    obs t 14 = [0x01, 0x02, 0x12, 0x34, 0x56, 0xFF, 0xFF, 0xFF, 0x06, 0x40, 0x01, 0x67, 0xFF, 0x00]
    ∧ t.statusWord = 0x42000002 := by
  decide

theorem test_metaPosPack_range : let t := run 0x00000042 (st [1, 2, 0x123456, 0xFFFFFFFF, 0xFFFFFA23, 359, 300] [])
    t.statusWord = 0x4205010A := by
  decide

theorem test_metaPosUnpack : let t := run 0x00000043 (st [] [0x01, 0x02, 0x12, 0x34, 0x56, 0xFF, 0xFF, 0xFF, 0x06,
      0x40, 0x01, 0x67, 0xFF, 0x00])
    regs t [0, 1, 2, 3, 4, 5, 6, 7] = [1, 2, 0x00123456, 0xFFFFFFFF, 100, 359, 255, 0] ∧ t.statusWord = 0x43000002 := by
  decide

theorem test_metaEcsPack : let t := run 0x00000044 (st [] [0x00, 0x00, 0x02, 0xF2, 0x4C, 0x99, 0x00, 0x00, 0x89,
      0xAD, 0x6F, 0x80])
    obs t 14 = [0x00, 0x00, 0x02, 0xF2, 0x4C, 0x99, 0x00, 0x00, 0x89, 0xAD, 0x6F, 0x80, 0x00, 0x00]
    ∧ t.statusWord = 0x44000002 := by
  decide

theorem test_metaEcsUnpack : let t := run 0x00000045 (st [] [0x00, 0x00, 0x02, 0xF2, 0x4C, 0x99, 0x00, 0x00, 0x89,
      0xAD, 0x6F, 0x80, 0x12, 0x34])
    regs t [0, 1, 2, 3, 4] = [0x1234, 0x02F24C99, 0, 0x89AD6F80, 0]
    ∧ obs t 12 = [0x00, 0x00, 0x02, 0xF2, 0x4C, 0x99, 0x00, 0x00, 0x89, 0xAD, 0x6F, 0x80]
    ∧ t.statusWord = 0x45000002 := by
  decide

theorem test_aesivCtr : let t := run 0x00000046 (st [0x8001] (List.replicate 14 0xAA))
    t.statusWord = 0x46000002 ∧ obs t 16 = List.replicate 14 0xAA ++ [0x80, 0x01] := by
  decide

theorem test_textPack : let t := run 0x00110047 (st [] [0x48, 0x65, 0x6C, 0x6C, 0x6F, 0x2C, 0x20, 0x4D, 0x31, 0x37,
      0x20, 0x77, 0x6F, 0x72, 0x6C, 0x64, 0x21])
    regs t [0, 1] = [2, 17] ∧ obs t 21 = [0x20, 0x48, 0x65, 0x6C, 0x6C, 0x6F, 0x2C, 0x20, 0x4D, 0x31, 0x37, 0x20,
      0x77, 0x6F, 0x21, 0x72, 0x6C, 0x64, 0x21, 0x00, 0x00] ∧ t.statusWord = 0x47000002 := by
  decide

theorem test_textReset : let t := run 0x00000048 (st [] [])
    t.statusWord = 0x48000002 ∧ t.text.stat = 0 := by
  decide

theorem test_textAccept : let t := run 0x00000049 (st [] (0x20 :: List.replicate 13 0x41))
    let u := run 0x00000049 { t with mem := Memory.writeBytes [] ibufBase (0x21 :: 0x42 :: List.replicate 12 0) }
    regs t [0, 2, 3] = [0, 2, 1] ∧ regs u [0, 1, 2, 3] = [2, 14, 0, 0]
    ∧ obs u 14 = List.replicate 13 0x41 ++ [0x42] ∧ u.statusWord = 0x49000002 := by
  decide

theorem test_textAccept_out_of_order : let t := run 0x00000049 (st [] (0x21 :: List.replicate 13 0x41))
    regs t [0] = [0] ∧ t.statusWord = 0x4906050A ∧ t.text.active = false := by
  decide

theorem test_lichChunk : let t := run 0x00000050 (st [1] lsfD28)
    obs t 18 = [0x33, 0x20, 0x00, 0x11, 0x35, 0xA0, 0x33, 0x24, 0x48, 0x00, 0x00, 0x00, 0x11, 0x35, 0x06, 0x5A, 0x04,
      0x98] ∧ t.statusWord = 0x50000002 := by
  decide

theorem test_lichReset : let t := run 0x00000051 (st [0x1234] [])
    t.statusWord = 0x51000002 ∧ t.lich.stat = 0x12340100 := by
  decide

/-- Steps 1 and 3 of the collector's table (95_test_vectors.md 3.10). -/
theorem test_lichAccept : let t := run 0x00000052 (st [0, 10, 0x1234] [0x00, 0x00, 0x02, 0xF2, 0x4C])
    let u := run 0x00000052 { t with mem := Memory.writeBytes [] ibufBase [0x00, 0x00, 0x02, 0xF2, 0x4D] }
    regs t [0, 1] = [1, 0] ∧ t.statusWord = 0x52000002 ∧ regs u [0, 1] = [1, 3] ∧ u.statusWord = 0x5202050A := by
  decide

/-- Steps 4 and 8 of the same table. -/
theorem test_lichAccept_replaces : let t := run 0x00000052 (st [0, 10, 0x1234] [0x00, 0x00, 0x02, 0xF2, 0x4C])
    let u := run 0x00000052 { st [0, 9, 0x1234] [0x00, 0x00, 0x02, 0xF2, 0x4D] with lich := t.lich }
    let v := run 0x00000052 { st [0, 10, 0x0001] [0x00, 0x00, 0x02, 0xF2, 0x4C] with lich := u.lich }
    regs u [0, 1] = [1, 2] ∧ regs v [0, 1] = [1, 0] ∧ v.lich.stat = 0x00010101 := by
  decide

/-- The collector with the six chunks of an LSF. -/
def lichOf (L : Bytes) : LichCollector :=
  { slots := Vector.ofFn fun k =>
      { valid := true, data := BitVec.ofNat 40 (beNat (slice L (5 * k.val) (5 * k.val + 5))), metric := 0 }
    sid := 7, sidValid := true }

theorem test_lichAssemble : let t := run 0x00000053 { st [] [] with lich := lichOf lsfD }
    regs t [0, 1, 2, 3] = [0x3F, 0x0005, 0, 0x390B] ∧ obs t 30 = lsfD ∧ t.statusWord = 0x53000002 := by
  decide

theorem test_lichAssemble_missing : let t := run 0x00000053 (st [] [])
    regs t [0] = [0] ∧ t.statusWord = 0x5301050A := by
  decide

theorem test_lichRx_range : let t := run 0x00000054 (st [0x10000] [])
    regs t [0] = [0] ∧ t.statusWord = 0x5405010A := by
  decide

theorem test_pktBuild : let t := run 0x00050058 (st [0] [0x48, 0x65, 0x6C, 0x6C, 0x6F])
    regs t [0, 1, 2] = [8, 1, 0x333B] ∧ obs t 8 = [0x00, 0x48, 0x65, 0x6C, 0x6C, 0x6F, 0x33, 0x3B]
    ∧ t.statusWord = 0x58000002 := by
  decide

theorem test_pktBuild_too_long : let t := run 0x03370058 (st [0] [])
    regs t [0] = [0] ∧ t.statusWord = 0x5803010A := by
  decide

theorem test_pktChunk : let t := run 0x001A0059 (st [] (List.replicate 26 0x55))
    regs t [0] = [2] ∧ t.statusWord = 0x59000002
    ∧ obs t 52 = List.replicate 25 0x55 ++ 0x00 :: 0x55 :: List.replicate 24 0 ++ [0x84] := by
  decide

theorem test_pktReset : let t := run 0x0000005A (st [] [])
    t.statusWord = 0x5A000002 ∧ t.pkt.stat = 0 := by
  decide

/-- A stored first chunk, then the whole packet "Hello" as a one-chunk packet (95_test_vectors.md 3.10). -/
theorem test_pktAccept : let t := run 0x0000005B (st [] (List.replicate 25 0x55 ++ [0x00]))
    let u := run 0x0000005B (st [] ([0x00, 0x48, 0x65, 0x6C, 0x6C, 0x6F, 0x33, 0x3B] ++ List.replicate 17 0 ++ [0xA0]))
    regs t [0, 3] = [0, 1] ∧ t.pkt.stat = 0x00190101 ∧ t.statusWord = 0x5B000002
    ∧ regs u [0, 1, 2, 3] = [2, 0, 5, 0] ∧ obs u 8 = [0x00, 0x48, 0x65, 0x6C, 0x6C, 0x6F, 0x33, 0x3B] := by
  decide

theorem test_pktAccept_short : let t := run 0x0000005B (st [] (List.replicate 25 0x55 ++ [0x88]))
    regs t [0, 3] = [0, 0] ∧ t.statusWord = 0x5B07050A ∧ t.pkt.stat = 0 := by
  decide

theorem test_pktFlush : let t := run 0x0000005B (st [] (List.replicate 25 0x55 ++ [0x00]))
    let u := run 0x0000005C t
    u.statusWord = 0x5C04050A ∧ u.pkt.stat = 0 ∧ (run 0x0000005C u).statusWord = 0x5C000002 := by
  decide

/-- The payload of scenario E (95_test_vectors.md 2.5). -/
def voice : Bytes := [0x00, 0x00, 0x76, 0x6F, 0x69, 0x63, 0x65, 0x5F, 0x64, 0x61, 0x74, 0x61, 0x5F, 0x68, 0x65, 0x72,
  0x65, 0x21]

theorem test_ipBuild : let t := run 0x00000060 (st [0x1234] (lsfD28 ++ voice))
    regs t [0] = [0xD629] ∧ obs t 54 = [0x4D, 0x31, 0x37, 0x20, 0x12, 0x34] ++ lsfD28 ++ voice ++ [0xD6, 0x29] := by
  decide

theorem test_ipParse : let t := run 0x00000061 (st []
      ([0x4D, 0x31, 0x37, 0x20, 0x12, 0x34] ++ lsfD28 ++ voice ++ [0xD6, 0x29]))
    regs t [0, 1, 2, 3, 4, 5] = [0x1234, 0x0005, 0, 0x390B, 0, 0xD629] ∧ obs t 48 = lsfD ++ voice
    ∧ t.statusWord = 0x61000002 := by
  decide

theorem test_ipParse_magic : let t := run 0x00000061 (st [] [0x6D, 0x31, 0x37, 0x20])
    regs t [0] = [0] ∧ t.statusWord = 0x6100030A := by
  decide

theorem test_lsfTx : let t := run 0x00000070 (st [] lsfD28)
    regs t [0] = [0x390B] ∧ obs t 4 = [0x55, 0xF7, 0xD6, 0xFD] ∧ t.statusWord = 0x70000002 ∧ t.ob 47 = 0xC2 := by
  decide

theorem test_strTx : let t := run 0x00000072 (st [] [0x00, 0x00, 0x00, 0x5E, 0x49, 0x80, 0x00, 0x00, 0x00, 0x01,
      0x02, 0x03, 0x04, 0x05, 0x06, 0x07, 0x08, 0x09, 0x0A, 0x0B, 0x0C, 0x0D, 0x0E, 0x0F])
    obs t 4 = [0xFF, 0x5D, 0xD0, 0xA9] ∧ t.statusWord = 0x72000002 ∧ t.ob 47 = 0xC5 := by
  decide

theorem test_strRx_range : let t := run 0x00000073 (st [0x20000] [])
    regs t [0] = [0] ∧ t.statusWord = 0x7305010A := by
  decide

theorem test_pktTx : let t := run 0x00000074 (st [] ([0x00, 0x48, 0x65, 0x6C, 0x6C, 0x6F, 0x33, 0x3B] ++
      List.replicate 17 0 ++ [0xA0]))
    obs t 4 = [0x75, 0xFF, 0xD7, 0xB4] ∧ t.statusWord = 0x74000002 ∧ t.ob 47 = 0xC3 := by
  decide

theorem test_bertTx : let t := run 0x00000076 (st [0x1FF] [])
    regs t [0] = [0] ∧ t.statusWord = 0x7601010A := by
  decide

theorem test_bertRx : let t := run 0x00000077 (st [0x1FF] [])
    regs t [0] = [0] ∧ t.statusWord = 0x7701010A := by
  decide

/-! ## Witnesses: for each statement with hypotheses, states and operands that meet them, at the bounds of each
clause -/

/-- The state after a command (`exec` never stops). -/
def result (i : Instr) (s : State) : State :=
  match exec i s with
  | .next t => t
  | .fault _ => s
  | .refused _ => s

theorem exec_result (i : Instr) (s : State) : exec i s = .next (result i s) := by
  cases i <;> rfl

/-- A state whose IBUF begins with these bytes. -/
def loaded (s : State) (B : Bytes) : State := { s with mem := Memory.writeBytes [] ibufBase B }

theorem loaded_ib (s : State) (B : Bytes) {k : Nat} (h : k < B.length) : (loaded s B).ib k = B[k] := by
  unfold State.ib State.byteAt loaded
  rw [Memory.find_writeBytes, if_pos ⟨by omega, by omega⟩]
  simp [List.getElem?_eq_getElem h]

/-- IBUF loaded with the values of a function. -/
theorem loaded_map (s : State) (f : Nat → Byte) (n : Nat) {k : Nat} (h : k < n) :
    (loaded s ((List.range n).map f)).ib k = f k := by
  rw [loaded_ib _ _ (by simpa using h)]
  simp

/-- What IBUF holds does not depend on the collectors. -/
theorem ib_collectors (s : State) (l : LichCollector) (p : PacketReassembler) (c : TextCollector) (k : Nat) :
    { s with lich := l }.ib k = s.ib k ∧ { s with pkt := p }.ib k = s.ib k ∧ { s with text := c }.ib k = s.ib k :=
  ⟨rfl, rfl, rfl⟩

/-- IBUF loaded with the OBUF of a state. -/
theorem loaded_ob (s t : State) (n : Nat) : ∀ k < n, (loaded s ((List.range n).map t.ob)).ib k = t.ob k :=
  fun _ hk => loaded_map s t.ob n hk

/-- IBUF loaded with the soft image of what a state's OBUF holds. -/
theorem loaded_soft (s t : State) (lo n : Nat) :
    SoftImage t (loaded s ((List.range n).map fun k => softBit (t.obBit k))) lo n :=
  fun _ _ hk => loaded_map s _ n hk

/-- A state in which it is the host's turn, `e` the next event. -/
def hosted (s : State) (e : HostEvent) : State := { s with inbox := [e], countdown := 1 }

/-- It is the host's turn, and `e` is its next event. -/
abbrev HostNext (s : State) (e : HostEvent) : Prop := s.inbox = [e] ∧ s.engineTurn = false

/-- The reset state with a command in flight. -/
def busyState : State := State.reset.latch 0x0000002A

theorem witness_StepRunsDecodedCommand :
    (State.reset.withCommand 0x01).engineTurn = true ∧ decode (State.reset.withCommand 0x01).cmd = .ok .clear
    ∧ decodeTableWord 32 0x04000008 = some (.crc16 1024) := by
  decide

theorem witness_DecodeEncodeRoundTrip :
    (Instr.viterbi 65535 3).wellFormed = true ∧ decode 0xFFFF032A = .ok (.viterbi 65535 3) := by
  decide

theorem witness_DecodeChecksInOrder :
    reservedOpc 0x77 = false ∧ reservedOpc 0x78 = true ∧ reservedOpc 0x02 = true ∧ reservedOpc 0x01 = false
    ∧ nonzeroField 0x00010000 ∧ ¬ nonzeroField 0xFFFF0428 ∧ 0xFFFF0428 % 256 ∈ schedOpc
    ∧ 4 ≤ 0xFFFF0428 / 2 ^ 8 % 16 := by
  simp [nonzeroField, lenOpc, schedOpc, softOpc, reservedOpc]

theorem witness_IllegalWordCompletes :
    (State.reset.withCommand 0x78).engineTurn = true
    ∧ decode (State.reset.withCommand 0x78).cmd = .error .reservedOpcode
    ∧ (State.reset.withCommand 0x2000).engineTurn = true
    ∧ decode (State.reset.withCommand 0x2000).cmd = .error .nonzeroField
    ∧ (State.reset.withCommand 0x428).engineTurn = true
    ∧ decode (State.reset.withCommand 0x428).cmd = .error .badSched := by
  decide

theorem witness_AcceptanceLatches : let s := hosted State.reset (.write 0x00C 32 0x00000070)
    HostNext s (.write 0x00C 32 0x00000070) ∧ s.inReset = false ∧ s.busy = false := by
  decide

theorem witness_BusyWriteSetsViolation :
    (let s := hosted busyState (.write 0x060 32 1)
     HostNext s (.write 0x060 32 1) ∧ s.inReset = false ∧ s.busy = true ∧ ¬ BusError 0x060 32)
    ∧ (let s := hosted busyState (.write 0x064 32 1)
       HostNext s (.write 0x064 32 1) ∧ s.inReset = false ∧ s.busy = true ∧ BusError 0x064 32) := by
  unfold BusError
  decide

theorem witness_BusErrorHasNoEffect :
    (let s := hosted State.reset (.read 0xC00 8)
     HostNext s (.read 0xC00 8) ∧ s.inReset = false)
    ∧ (let s := hosted State.reset (.write 0x002 32 0)
       HostNext s (.write 0x002 32 0) ∧ s.inReset = false)
    ∧ BusError 0x000 8 ∧ BusError 0x062 32 ∧ BusError 0x064 32 ∧ BusError 0x3FF 8 ∧ BusError 0x400 32
    ∧ BusError 0xBFF 16
    ∧ BusError 0xC00 8 ∧ BusError 0xFFF 8
    ∧ ¬ BusError 0x000 32 ∧ ¬ BusError 0x060 32 ∧ ¬ BusError 0x400 8 ∧ ¬ BusError 0xBFF 8 := by
  refine ⟨by decide, by decide, ?_⟩
  simp [BusError]

theorem witness_HostReadsAtAddresses :
    (let s := hosted State.reset (.read 0xBFF 8)
     HostNext s (.read (BitVec.ofNat 12 (0x800 + 1023)) 8) ∧ s.inReset = false ∧ s.busy = false)
    ∧ (let s := hosted busyState (.read 0x04C 32)
       HostNext s (.read (BitVec.ofNat 12 (0x030 + 4 * 7)) 32) ∧ s.inReset = false ∧ s.busy = true)
    ∧ (let s := hosted { State.reset with pkt := { PacketReassembler.idle 0 with active := true, exp := 32 } } (.read 0x054 32)
       HostNext s (.read (BitVec.ofNat 12 0x054) 32) ∧ s.inReset = false ∧ s.busy = false ∧ s.pkt.exp.toNat ≤ 32)
    ∧ (let s := hosted busyState (.read 0x7FF 8)
       HostNext s (.read (BitVec.ofNat 12 (0x400 + 1023)) 8) ∧ s.inReset = false) := by
  decide

theorem witness_HostWritesAtAddresses :
    (let s := hosted State.reset (.write 0x02C 32 5)
     HostNext s (.write (BitVec.ofNat 12 (0x010 + 4 * 7)) 32 5) ∧ s.inReset = false ∧ s.busy = false)
    ∧ (let s := hosted State.reset (.write 0x7FF 8 0x1FF)
       HostNext s (.write (BitVec.ofNat 12 (0x400 + 1023)) 8 0x1FF) ∧ s.inReset = false ∧ s.busy = false)
    ∧ (let s := hosted State.reset (.write 0xBFF 8 0)
       HostNext s (.write (BitVec.ofNat 12 (0x800 + 1023)) 8 0) ∧ s.inReset = false ∧ s.busy = false) := by
  decide

theorem witness_StatusWriteClears :
    (let s := hosted State.reset (.write 0x008 32 6)
     HostNext s (.write 0x008 32 6) ∧ s.inReset = false)
    ∧ (let s := hosted { busyState with viol := true } (.write 0x008 32 4)
       HostNext s (.write 0x008 32 4) ∧ s.inReset = false ∧ s.busy = true) := by
  decide

theorem witness_InterruptLine :
    (let s := hosted { State.reset with done := true } (.write 0x004 32 7)
     HostNext s (.write 0x004 32 7) ∧ s.inReset = false ∧ s.busy = false)
    ∧ (let s := hosted { State.reset with done := true, ctrl := 7 } (.write 0x00C 32 0)
       HostNext s (.write 0x00C 32 0) ∧ s.inReset = false ∧ s.busy = false) := by
  decide

theorem witness_ResetEventAndValues :
    HostNext (hosted busyState .resetAssert) .resetAssert
    ∧ (let s := hosted { busyState with inReset := true } .resetRelease
       HostNext s .resetRelease ∧ s.inReset = true)
    ∧ (let s := hosted { busyState with inReset := true } (.read 0xFFF 16)
       HostNext s (.read 0xFFF 16) ∧ s.inReset = true)
    ∧ (let s := hosted { busyState with inReset := true } (.write 0x00C 32 0)
       HostNext s (.write 0x00C 32 0) ∧ s.inReset = true) := by
  decide

/-- A text in progress, its second and last block in IBUF, and TEXT_ACCEPT about to run. -/
def textState : State :=
  { loaded (State.reset.withCommand 0x49) [0x21, 0x42] with
    text := { active := true, cnt := 2, next := 1, tbuf := Memory.writeBytes [] 0 (List.replicate 13 0x41), epoch := 0 } }

theorem witness_InvariantKept : textState.Inv ∧ ∃ t, step textState = .next t := by
  refine ⟨⟨?_, ?_, ⟨?_, ?_⟩, ⟨?_, ?_, ?_, ?_, ?_⟩, ⟨?_, ?_, ?_, ?_, ?_⟩, ?_⟩, _, exec_result .textAccept textState⟩
  all_goals decide

theorem witness_ResultsDependOnlyOnInputs :
    let s := st [1] lsfD28
    let s' := { s with res := Vector.replicate 8 7, cmd := 5, cmdcnt := 9, done := true }
    SameInputs s s' ∧ exec .lichChunk s = .next (result .lichChunk s)
    ∧ exec .lichChunk s' = .next (result .lichChunk s') ∧ s' ≠ s := by
  exact ⟨⟨rfl, rfl, rfl, rfl, rfl, fun _ _ => rfl⟩, exec_result .lichChunk _, exec_result .lichChunk _, by decide⟩

theorem witness_ErrorsLeaveOutputsUnchanged : let s := st [6] []
    exec .lichChunk s = .next (result .lichChunk s)
    ∧ (result .lichChunk s).error = some (.invalidInput .fieldRange)
    ∧ writesBeforeRaise .lichChunk (.invalidInput .fieldRange) = false :=
  ⟨exec_result .lichChunk _, by decide⟩

theorem witness_CollectorsChangeOnlyByTheirCommands : let s := st [] []
    exec .nop s = .next (result .nop s) ∧ Instr.nop ∉ [.clear, .lichReset, .lichAccept, .lichRx, .strRx]
    ∧ Instr.pktAccept ∉ [.clear, .textReset, .textAccept]
    ∧ Instr.textAccept ∉ [.clear, .pktReset, .pktAccept, .pktFlush] :=
  ⟨exec_result .nop _, by decide⟩

theorem witness_OnlyListedErrors : let s := st [] [0x00]
    Instr.wellFormed .textAccept = true ∧ exec .textAccept s = .next (result .textAccept s)
    ∧ (result .textAccept s).error = some (.reassembly .badCount) ∧ s.error = none :=
  ⟨rfl, exec_result .textAccept _, by decide, rfl⟩

theorem witness_Crc16Command : (1024 : BitVec 16).toNat ≤ 1024 ∧ 1024 < (1025 : BitVec 16).toNat := by decide

theorem witness_Crc16ChkCommand :
    (2 ≤ (2 : BitVec 16).toNat ∧ (2 : BitVec 16).toNat ≤ 1024)
    ∧ (2 ≤ (1024 : BitVec 16).toNat ∧ (1024 : BitVec 16).toNat ≤ 1024)
    ∧ (1 : BitVec 16).toNat < 2 ∧ 1024 < (1025 : BitVec 16).toNat := by
  decide

theorem witness_B40EncCommandAndAlphabet :
    9 < (10 : BitVec 16).toNat ∧ (9 : BitVec 16).toNat ≤ 9
    ∧ (st [] [0x40, 0x41, 0x4C, 0x4C]).ibytes 0 4 = [0x40, 0x41, 0x4C, 0x4C]
    ∧ ((st [] [0x23, 0x39]).ibytes 0 2 = 0x23 :: [0x39] ∧ ∀ c ∈ ([0x39] : Bytes), inAlphabet c = true)
    ∧ ((st [] [0x23, 0x40]).ibytes 0 2 = 0x23 :: [0x40] ∧ ∃ c ∈ ([0x40] : Bytes), inAlphabet c = false)
    ∧ (let text := (st [] (List.replicate 9 0x2E)).ibytes 0 9
       text ≠ [0x40, 0x41, 0x4C, 0x4C] ∧ text.head? ≠ some 0x23 ∧ ∀ c ∈ text, inAlphabet c = true)
    ∧ (let text := (st [] [0x40, 0x41, 0x4C]).ibytes 0 3
       text ≠ [0x40, 0x41, 0x4C, 0x4C] ∧ text.head? ≠ some 0x23 ∧ ∃ c ∈ text, inAlphabet c = false) := by
  decide

theorem witness_B40DecCommands :
    2 ^ 16 ≤ ((st [0, 0x10000] []).argReg 1).toNat ∧ ((st [0, 0xFFFF] []).argReg 1).toNat < 2 ^ 16
    ∧ (let n : State → Nat := fun s => (s.argReg 1).toNat * 2 ^ 32 + (s.argReg 0).toNat
       n (st [0xFFFFFFFF, 0xFFFF] []) = 0xFFFFFFFFFFFF
       ∧ (0xF46109000000 ≤ n (st [0x09000000, 0xF461] []) ∧ n (st [0x09000000, 0xF461] []) < 0xFFFFFFFFFFFF)
       ∧ (0xF46109000000 ≤ n (st [0xFFFFFFFE, 0xFFFF] []) ∧ n (st [0xFFFFFFFE, 0xFFFF] []) < 0xFFFFFFFFFFFF)
       ∧ (0xEE6B28000000 ≤ n (st [0x28000000, 0xEE6B] []) ∧ n (st [0x28000000, 0xEE6B] []) < 0xF46109000000)
       ∧ (0xEE6B28000000 ≤ n (st [0x08FFFFFF, 0xF461] []) ∧ n (st [0x08FFFFFF, 0xF461] []) < 0xF46109000000)
       ∧ n (st [0, 0] []) = 0
       ∧ (0 < n (st [1, 0] []) ∧ n (st [1, 0] []) < 0xEE6B28000000)
       ∧ (0 < n (st [0x27FFFFFF, 0xEE6B] []) ∧ n (st [0x27FFFFFF, 0xEE6B] []) < 0xEE6B28000000))
    ∧ beNat ((st [] (List.replicate 6 0xFF)).ibytes 0 6) = 0xFFFFFFFFFFFF
    ∧ beNat ((st [] (List.replicate 6 0)).ibytes 0 6) = 0 := by
  decide

theorem witness_CallsignRoundTrip :
    (let s := st [] [0x41, 0x42, 0x20]
     let t := result (.b40Enc 3) s
     let B := [t.ob 0, t.ob 1, t.ob 2, t.ob 3, t.ob 4, t.ob 5]
     (3 : BitVec 16).toNat ≤ 9 ∧ exec (.b40Enc 3) s = .next t ∧ t.error = none
     ∧ IbHolds (loaded State.reset B) 0 B)
    ∧ ((List.replicate 9 0x2E : Bytes).length ≤ 9 ∧ ∀ c ∈ (List.replicate 9 0x2E : Bytes), inAlphabet c = true)
    ∧ 40 ^ 9 - 1 < 40 ^ 9 := by
  refine ⟨⟨by decide, exec_result (.b40Enc 3) _, by decide, fun k hk => ?_⟩, by decide, by decide⟩
  rw [Nat.zero_add]
  exact loaded_ib _ _ hk

theorem witness_TypeV2Commands :
    (let a : Fin 8 → Nat := fun n => ((st [1, 3, 3, 3, 15] []).argReg n).toNat
     a 0 ≤ 1 ∧ a 1 ≤ 3 ∧ a 2 ≤ 3 ∧ a 3 ≤ 3 ∧ a 4 ≤ 15)
    ∧ 1 < ((st [2] []).argReg 0).toNat ∧ 3 < ((st [0, 4] []).argReg 1).toNat ∧ 3 < ((st [0, 0, 4] []).argReg 2).toNat
    ∧ 3 < ((st [0, 0, 0, 4] []).argReg 3).toNat ∧ 15 < ((st [0, 0, 0, 0, 16] []).argReg 4).toNat
    ∧ ((st [0xFFFF] []).argReg 0).toNat < 2 ^ 16 ∧ 2 ^ 16 ≤ ((st [0x10000] []).argReg 0).toNat := by
  decide

theorem witness_TypeV3AndDetectCommands :
    (let a : Fin 8 → Nat := fun n => ((st [15, 7, 1, 15, 15] []).argReg n).toNat
     a 0 ≤ 15 ∧ a 1 ≤ 7 ∧ a 2 ≤ 1 ∧ a 3 ≤ 15 ∧ a 4 ≤ 15)
    ∧ 15 < ((st [16] []).argReg 0).toNat ∧ 7 < ((st [0, 8] []).argReg 1).toNat ∧ 1 < ((st [0, 0, 2] []).argReg 2).toNat
    ∧ 15 < ((st [0, 0, 0, 16] []).argReg 3).toNat ∧ 15 < ((st [0, 0, 0, 0, 16] []).argReg 4).toNat
    ∧ ((st [0xFFFF] []).argReg 0).toNat < 2 ^ 16 ∧ 2 ^ 16 ≤ ((st [0x10000] []).argReg 0).toNat := by
  decide

theorem witness_GolayEncCommand :
    ((st [0xFFF] []).argReg 0).toNat < 2 ^ 12 ∧ 2 ^ 12 ≤ ((st [0x1000] []).argReg 0).toNat
    ∧ (0x000 : BitVec 12) ≠ 0xFFF := by
  decide

/-- No choice of the rows `gs` brings the parity `p`, of a data word with `w` ones so far, within distance 3 of `r`
with `0` above it. -/
def farFrom (r : BitVec 12) : List (BitVec 12) → Nat → BitVec 12 → Bool
  | [], w, p => 3 < w + hamming p r
  | g :: gs, w, p => 3 < w || (farFrom r gs w p && farFrom r gs (w + 1) (p ^^^ g))

theorem farFrom_spec {r : BitVec 12} {gs : List (BitVec 12)} {w : Nat} {p : BitVec 12} (h : farFrom r gs w p = true)
    (bs : Bits) (hl : bs.length = gs.length) :
    3 < w + bs.countP id + hamming ((List.zip gs bs).foldl (fun p x => if x.2 then p ^^^ x.1 else p) p) r := by
  induction gs generalizing w p bs with
  | nil =>
    obtain rfl : bs = [] := List.length_eq_zero_iff.1 hl
    simpa [farFrom] using h
  | cons g gs ih =>
    obtain ⟨b, bs, rfl⟩ : ∃ b bs', bs = b :: bs' := List.exists_cons_of_length_eq_add_one hl
    rw [farFrom, Bool.or_eq_true, decide_eq_true_eq, Bool.and_eq_true] at h
    rcases h with h | ⟨h0, h1⟩
    · omega
    · cases b with
      | false => simpa using ih h0 bs (by simpa using hl)
      | true =>
        have := ih h1 bs (by simpa using hl)
        simp only [List.countP_cons, id, if_true, List.zip_cons_cons, List.foldl_cons]
        omega

theorem golay_far (d : BitVec 12) : 3 < hamming (golay hw d) 0x00000F := by
  have hp : golayPar hw d = (List.zip golayParity ((List.range 12).map d.getLsbD)).foldl
      (fun p x => if x.2 then p ^^^ x.1 else p) 0 := rfl
  have := farFrom_spec (r := 0x00F) (gs := golayParity) (w := 0) (p := 0) (by decide)
    ((List.range 12).map d.getLsbD) rfl
  rw [← hp, List.countP_map, Nat.zero_add] at this
  rw [golay, show (0x00000F : BitVec 24) = (0 : BitVec 12) ++ (0x00F : BitVec 12) from rfl, hamming_append]
  have hd : hamming d 0 = (List.range 12).countP (id ∘ d.getLsbD) := by
    rw [hamming, show d ^^^ 0 = d from BitVec.xor_zero]
    rfl
  omega
theorem witness_GolayDecCorrects :
    (popcount (0x800081 : BitVec 24) ≤ 3 ∧ (st [0x2BC2BD] []).argReg 0 = (golay hw 0xABC ^^^ 0x800081).setWidth 32)
    ∧ (popcount (0x00000F : BitVec 24) = 4 ∧ (st [0xABC233] []).argReg 0 = (golay hw 0xABC ^^^ 0x00000F).setWidth 32)
    ∧ 2 ^ 24 ≤ ((st [0x01000000] []).argReg 0).toNat
    ∧ ((st [0x00000F] []).argReg 0 = (0x00000F : BitVec 24).setWidth 32 ∧ ∀ d, 3 < hamming (golay hw d) 0x00000F) :=
  ⟨by decide, by decide, by decide, by decide, golay_far⟩

theorem witness_LichCodecCorrects :
    let u : BitVec 48 := 0xA00000072160
    let err : Nat → BitVec 24 := fun j => if j = 3 then 0 else 0x800081
    let s := loaded State.reset ((List.range 96).map fun m =>
      softBit ((golay hw (unitWord u (m / 24)) ^^^ err (m / 24)).getLsbD (23 - m % 24)))
    (∀ j < 4, popcount (err j) ≤ 3)
    ∧ ∀ j < 4, ∀ k < 24, s.ib (24 * j + k) = softBit ((golay hw (unitWord u j) ^^^ err j).getLsbD (23 - k)) := by
  refine ⟨by decide, fun j hj k hk => ?_⟩
  rw [loaded_map _ _ _ (by omega), show (24 * j + k) / 24 = j by omega, show (24 * j + k) % 24 = k by omega]

/-- Parameter values other than this hardware's that meet the constraints: P2 with its 0 at position 8, P3 with its 0 at
position 4, and the other forms of the LICH counter, the PRBS and the text index. -/
def otherParams : Params :=
  { hw with
    punctP2 := List.replicate 8 true ++ [false, true, true, true]
    punctP3 := List.replicate 4 true ++ [false, true, true, true]
    lichCtrPos := .ctrSuffix, prbsForm := .galois, textIndexBase := 1, bertPunct := .other [true, false] }

theorem witness_KeptCounts : ParamsOk otherParams ∧ (List.replicate 240 true : Bits).length = 240
    ∧ (List.replicate 144 true : Bits).length = 144 ∧ (List.replicate 206 true : Bits).length = 206 := by
  refine ⟨by decide, ?_, ?_, ?_⟩ <;> simp

/-- 90_conflicts.md C3: a mask that keeps 61 of every 61 bits is refused. -/
theorem test_params_all_kept_refused : ¬ ParamsOk { hw with punctP1 := List.replicate 61 true } := by
  decide

theorem witness_ConvEncAndPunctCommands :
    (3 : BitVec 4).toNat ≤ 3 ∧ (0 : BitVec 4).toNat ≤ 3 ∧ (508 : BitVec 16).toNat ≤ 508 ∧ 508 < (509 : BitVec 16).toNat
    ∧ (8192 : BitVec 16).toNat ≤ 8192 ∧ 8192 < (8193 : BitVec 16).toNat := by
  decide

theorem witness_ViterbiIsMaximumLikelihood :
    (3 : BitVec 4).toNat ≤ 3 ∧ (508 : BitVec 16).toNat ≤ 508 ∧ 508 < (509 : BitVec 16).toNat := by
  decide

theorem witness_ConvViterbiRoundTrip : ∀ sched : BitVec 4, sched.toNat ≤ 3 →
    let s := st [] [0xB2]
    let t := result (.convEnc 508 sched) s
    let n := kept (schedMask hw sched) (2 * ((508 : BitVec 16).toNat + 4))
    (508 : BitVec 16).toNat ≤ 508 ∧ exec (.convEnc 508 sched) s = .next t
    ∧ SoftImage t (loaded s ((List.range n).map fun k => softBit (t.obBit k))) 0 n :=
  fun sched _ => ⟨by decide, exec_result (.convEnc 508 sched) _, loaded_soft _ _ _ _⟩

theorem witness_IntlvAndRandCommands :
    (367 : BitVec 16) ≠ 368 ∧ (369 : BitVec 16) ≠ 368 ∧ (List.replicate 368 true : Bits).length = 368
    ∧ (List.replicate 368 0x7F : Bytes).length = 368 := by
  simp

theorem witness_PrbsAndBerCommands :
    (8192 : BitVec 16).toNat ≤ 8192 ∧ 8192 < (8193 : BitVec 16).toNat ∧ ((st [0x1FF] []).argReg 0).toNat < 512
    ∧ 512 ≤ ((st [0x200] []).argReg 0).toNat ∧ (4096 : BitVec 16).toNat ≤ 4096 ∧ 4096 < (4097 : BitVec 16).toNat := by
  decide

theorem witness_LsfBuildAndParse :
    let s := st [] lsfD28
    let t := result .lsfBuild s
    exec .lsfBuild s = .next t ∧ ∀ k < 30, (loaded s ((List.range 30).map t.ob)).ib k = t.ob k :=
  ⟨exec_result .lsfBuild _, loaded_ob _ _ _⟩

theorem witness_MetaPositionPackAndUnpack :
    let ok : State → Prop := fun s =>
      (s.argReg 0).toNat ≤ 255 ∧ (s.argReg 1).toNat ≤ 255 ∧ -8388608 ≤ (s.argReg 2).toInt ∧ (s.argReg 2).toInt ≤ 8388607
      ∧ -8388608 ≤ (s.argReg 3).toInt ∧ (s.argReg 3).toInt ≤ 8388607 ∧ -1500 ≤ (s.argReg 4).toInt
      ∧ (s.argReg 4).toInt ≤ 64035 ∧ (s.argReg 5).toNat ≤ 359
    let s := st [255, 255, 0xFF800000, 0x007FFFFF, 0xFFFFFA24, 359, 256] []
    let t := result .metaPosPack s
    ok s ∧ ok (st [0, 0, 0x007FFFFF, 0xFF800000, 64035, 0, 0] []) ∧ ¬ ok (st [256] []) ∧ ¬ ok (st [0, 256] [])
    ∧ ¬ ok (st [0, 0, 0x00800000] []) ∧ ¬ ok (st [0, 0, 0, 0xFF7FFFFF] []) ∧ ¬ ok (st [0, 0, 0, 0, 64036] [])
    ∧ ¬ ok (st [0, 0, 0, 0, 0, 360] []) ∧ exec .metaPosPack s = .next t ∧ t.error = none
    ∧ ∀ k < 14, (loaded s ((List.range 14).map t.ob)).ib k = t.ob k := by
  exact ⟨by decide, by decide, by decide, by decide, by decide, by decide, by decide, by decide,
    exec_result .metaPosPack _, by decide, loaded_ob _ _ _⟩

theorem witness_MetaCallsignAndIvCommands :
    ((st [0xFFFF] []).argReg 0).toNat < 2 ^ 16 ∧ 2 ^ 16 ≤ ((st [0x10000] []).argReg 0).toNat := by
  decide

theorem witness_TextPackCommand : (195 : BitVec 16).toNat ≤ 195 ∧ 195 < (196 : BitVec 16).toNat := by decide

/-- The conditions under which TEXT_ACCEPT takes each of its branches, each met. -/
theorem witness_TextCollectorCommands :
    let cc : State → Nat := fun s => (s.ib 0).toNat / 16
    let p : State → Nat := fun s => (s.ib 0).toNat % 16
    let continues : State → Prop := fun s => s.text.active = true ∧ s.text.cnt.toNat = cc s
    let repeats : State → Prop := fun s => continues s ∧ s.text.next.toNat = p s + 1
      ∧ s.ibytes 1 14 = s.text.bytes (13 * p s) (13 * p s + 13)
    let again := loaded textState (0x20 :: List.replicate 13 0x41)
    let other := loaded textState (0x30 :: List.replicate 13 0x41)
    let beyond := loaded textState (0x31 :: List.replicate 13 0x41)
    let idle := loaded State.reset (0x10 :: List.replicate 13 0x41)
    cc (loaded State.reset [0xFF]) ≤ p (loaded State.reset [0xFF])
    ∧ (¬ cc again ≤ p again ∧ repeats again)
    ∧ (¬ cc textState ≤ p textState ∧ continues textState ∧ textState.text.next.toNat = p textState
        ∧ ¬ textState.text.next.toNat = p textState + 1 ∧ p textState + 1 = cc textState)
    ∧ (¬ cc other ≤ p other ∧ ¬ continues other ∧ p other = 0 ∧ other.text.active = true ∧ p other + 1 < cc other)
    ∧ (¬ cc idle ≤ p idle ∧ ¬ continues idle ∧ p idle = 0 ∧ idle.text.active = false ∧ p idle + 1 = cc idle)
    ∧ (¬ cc beyond ≤ p beyond ∧ ¬ continues beyond ∧ p beyond ≠ 0) := by
  decide

/-- The two TEXT_ACCEPTs of a text of two blocks. -/
def textBefore (t : State) : Nat → State
  | 0 => loaded State.reset ((List.range 14).map t.ob)
  | p + 1 =>
    { loaded State.reset ((List.range 14).map fun k => t.ob (14 * (p + 1) + k)) with
      text := (result .textAccept (textBefore t p)).text }

theorem textBefore_ib (t : State) (p : Nat) {k : Nat} (h : k < 14) : (textBefore t p).ib k = t.ob (14 * p + k) := by
  cases p with
  | zero =>
    rw [Nat.mul_zero, Nat.zero_add]
    exact loaded_ob _ _ _ _ h
  | succ p =>
    rw [textBefore, (ib_collectors _ LichCollector.empty (PacketReassembler.idle 0) _ k).2.2, loaded_map _ _ _ h]

theorem witness_TextRoundTrip :
    let s := st [] (List.replicate 14 0x41)
    let t := result (.textPack 14) s
    let before := textBefore t
    let after := fun p => result .textAccept (before p)
    let n := max 1 (((14 : BitVec 16).toNat + 12) / 13)
    (14 : BitVec 16).toNat ≤ 195 ∧ exec (.textPack 14) s = .next t ∧ (before 0).text.active = false
    ∧ (∀ p < n, ∀ k < 14, (before p).ib k = t.ob (14 * p + k))
    ∧ (∀ p < n, exec .textAccept (before p) = .next (after p))
    ∧ (∀ p, p + 1 < n → (before (p + 1)).text = (after p).text) ∧ n = 2 := by
  exact ⟨by decide, exec_result (.textPack 14) _, rfl, fun p _ k hk => textBefore_ib _ p hk,
    fun p _ => exec_result .textAccept _, fun p _ => rfl, by decide⟩

theorem witness_LichChunkAndResetCommands :
    ((st [5] []).argReg 0).toNat ≤ 5 ∧ 5 < ((st [6] []).argReg 0).toNat ∧ ((st [0xFFFF] []).argReg 0).toNat < 2 ^ 16
    ∧ 2 ^ 16 ≤ ((st [0x10000] []).argReg 0).toNat := by
  decide

theorem witness_LichAcceptCommand :
    (((st [5, 0, 0xFFFF] []).argReg 0).toNat ≤ 5 ∧ ((st [5, 0, 0xFFFF] []).argReg 2).toNat < 2 ^ 16)
    ∧ 5 < ((st [6] []).argReg 0).toNat ∧ 2 ^ 16 ≤ ((st [0, 0, 0x10000] []).argReg 2).toNat := by
  decide

theorem witness_LichAssembleCommand :
    (∃ k : Fin 6, State.reset.lich.slots[k].valid = false)
    ∧ ∀ k : Fin 6, { State.reset with lich := lichOf lsfD }.lich.slots[k].valid = true := by
  decide

/-- Soft values that are all equal, the soft image of four times the word `c`, decode to a unit that is bad just when
its counter is above 5. -/
theorem lichSoftDecode_flat {v : Byte} {c : BitVec 12}
    (h : golaySoft hw (List.replicate 24 v) = ⟨c, 0, golay hw c⟩)
    (hs : slicedWord hw (List.replicate 24 v) = golay hw c) :
    (lichSoftDecode hw (List.replicate 96 v)).bad = decide (5 < (ctrOf hw (c ++ (c ++ (c ++ c)))).toNat) := by
  have hw4 : ∀ j < 4, slice (List.replicate 96 v) (24 * j) (24 * j + 24) = List.replicate 24 v := by
    intro j hj
    rw [slice, List.drop_replicate, List.take_replicate, show min (24 * j + 24 - 24 * j) (96 - 24 * j) = 24 by omega]
  have h0 : hamming (golay hw c) (golay hw c) = 0 := by
    rw [hamming, BitVec.xor_self]
    rfl
  simp only [lichSoftDecode, hw4 0 (by omega), hw4 1 (by omega), hw4 2 (by omega), hw4 3 (by omega), h, hs, h0]
  simp

theorem lichSoftDecode_zeros : (lichSoftDecode hw (List.replicate 96 0)).bad = false := by
  rw [lichSoftDecode_flat (c := 0) (golaySoft_image (by decide)) (by decide)]
  decide

theorem lichSoftDecode_ones : (lichSoftDecode hw (List.replicate 96 255)).bad = true := by
  rw [lichSoftDecode_flat (c := 0xFFF) (golaySoft_image (by decide)) (by decide)]
  decide

theorem loaded_ibytes (s : State) (B : Bytes) {n : Nat} (h : B.length = n) : (loaded s B).ibytes 0 n = B := by
  refine List.ext_getElem (by simp [h]) fun k h1 h2 => ?_
  rw [State.ibytes_getElem, Nat.zero_add]
  exact loaded_ib _ _ h2

theorem witness_LichRxCommand :
    (let s := loaded (st [0xFFFF] []) (List.replicate 96 255)
     (s.argReg 0).toNat < 2 ^ 16 ∧ (lichSoftDecode hw (s.ibytes 0 96)).bad = true)
    ∧ (let s := loaded (st [0] []) (List.replicate 96 0)
       (s.argReg 0).toNat < 2 ^ 16 ∧ (lichSoftDecode hw (s.ibytes 0 96)).bad = false)
    ∧ 2 ^ 16 ≤ ((st [0x10000] []).argReg 0).toNat := by
  refine ⟨⟨by decide, ?_⟩, ⟨by decide, ?_⟩, by decide⟩
  · rw [loaded_ibytes _ _ List.length_replicate]
    exact lichSoftDecode_ones
  · rw [loaded_ibytes _ _ List.length_replicate]
    exact lichSoftDecode_zeros

/-- The operands of the j-th of six LICH_ACCEPTs, one for each chunk of LSF_D. -/
def lichStart (j : Nat) : State :=
  loaded (st [BitVec.ofNat 32 (j % 6), 0, 7] []) (slice lsfD (5 * (Fin.ofNat 6 j).val) (5 * (Fin.ofNat 6 j).val + 5))

/-- The state each of them runs in. -/
def lichBefore : Nat → State
  | 0 => lichStart 0
  | j + 1 => { lichStart (j + 1) with lich := (result .lichAccept (lichBefore j)).lich }

theorem lichBefore_holds (j : Nat) :
    IbHolds (lichBefore j) 0 (slice lsfD (5 * (Fin.ofNat 6 j).val) (5 * (Fin.ofNat 6 j).val + 5)) := by
  intro k hk
  rw [Nat.zero_add]
  cases j with
  | zero => exact loaded_ib _ _ hk
  | succ j =>
    rw [lichBefore, (ib_collectors _ _ (PacketReassembler.idle 0) (TextCollector.idle 0) k).1, lichStart,
      loaded_ib _ _ hk]

theorem witness_LichRoundTrip :
    let order : Nat → Fin 6 := fun j => Fin.ofNat 6 j
    let after := fun j => result .lichAccept (lichBefore j)
    let s' := { st [] [] with lich := (after 5).lich }
    lsfD.length = 30 ∧ 0 < 6
    ∧ ((lichBefore 0).lich.sidValid = false ∨ (lichBefore 0).lich.sid ≠ 7)
    ∧ (∀ j < 6, ((lichBefore j).argReg 0).toNat = (order j).val
      ∧ ((lichBefore j).argReg 2).toNat = (7 : BitVec 16).toNat
      ∧ IbHolds (lichBefore j) 0 (slice lsfD (5 * (order j).val) (5 * (order j).val + 5)))
    ∧ (∀ j < 6, exec .lichAccept (lichBefore j) = .next (after j))
    ∧ (∀ j, j + 1 < 6 → (lichBefore (j + 1)).lich = (after j).lich)
    ∧ s'.lich = (after (6 - 1)).lich ∧ ∀ k : Fin 6, ∃ j < 6, order j = k := by
  refine ⟨by decide, by decide, .inl rfl, fun j hj => ⟨?_, ?_, lichBefore_holds j⟩,
    fun j _ => exec_result .lichAccept _, fun j _ => rfl, rfl, by decide⟩
  · interval_cases j <;> decide
  · interval_cases j <;> decide

theorem witness_PacketBuildCommands :
    ((822 : BitVec 16).toNat ≤ 822 ∧ ((st [255] []).argReg 0).toNat < 256) ∧ 822 < (823 : BitVec 16).toNat
    ∧ 256 ≤ ((st [256] []).argReg 0).toNat ∧ 1 ≤ (1 : BitVec 16).toNat ∧ (825 : BitVec 16).toNat ≤ 825
    ∧ (0 : BitVec 16).toNat = 0 ∧ 825 < (826 : BitVec 16).toNat := by
  decide

/-- A packet in progress of which one chunk, 25 bytes of 0x55, is held. -/
def packetState : State :=
  { State.reset with
    pkt := { active := true, exp := 1, pbuf := Memory.writeBytes [] 0 (List.replicate 25 0x55), epoch := 0 } }

/-- The conditions under which PKT_ACCEPT takes each of its branches, each met. -/
theorem witness_PacketReassemblerCommands :
    let c : State → Nat := fun s => (s.ib 25).toNat / 4 % 32
    let last : State → Prop := fun s => 128 ≤ (s.ib 25).toNat
    let again : State → Prop := fun s => s.pkt.active = true ∧ c s + 1 = s.pkt.exp.toNat
    let chunk : Byte → Byte → State := fun data m => loaded packetState (List.replicate 25 data ++ [m])
    let Q : State → Bytes := fun s => s.pkt.bytes 0 (25 * s.pkt.exp.toNat) ++ s.ibytes 0 (c s)
    let far := { chunk 0x55 0x7C with pkt := { packetState.pkt with exp := 33 } }
    let idle := loaded State.reset (List.replicate 25 0x55 ++ [0x88])
    packetState.pkt.active = true
    ∧ (¬ last (chunk 0x55 0x00) ∧ again (chunk 0x55 0x00)
        ∧ (chunk 0x55 0x00).ibytes 0 25 = (chunk 0x55 0x00).pkt.bytes 0 25)
    ∧ (again (chunk 0x56 0x00) ∧ (chunk 0x56 0x00).ibytes 0 25 ≠ (chunk 0x56 0x00).pkt.bytes 0 25)
    ∧ (¬ last (chunk 0x55 0x04) ∧ ¬ again (chunk 0x55 0x04) ∧ c (chunk 0x55 0x04) = 1)
    ∧ (¬ last (chunk 0x55 0x08) ∧ ¬ again (chunk 0x55 0x08) ∧ 1 < c (chunk 0x55 0x08))
    ∧ (¬ last far ∧ ¬ again far ∧ c far ≠ 0 ∧ c far < far.pkt.exp.toNat)
    ∧ (last (chunk 0x55 0x80) ∧ c (chunk 0x55 0x80) = 0) ∧ (last (chunk 0x55 0xE8) ∧ 25 < c (chunk 0x55 0xE8))
    ∧ (last idle ∧ c idle = 2 ∧ (Q idle).length < 3)
    ∧ (last (chunk 0x55 0xE4) ∧ c (chunk 0x55 0xE4) = 25 ∧ 3 ≤ (Q (chunk 0x55 0xE4)).length) := by
  decide

/-- The PKT_ACCEPTs of a packet cut into chunks. -/
def packetBefore (v : State) : Nat → State
  | 0 => loaded State.reset ((List.range 26).map v.ob)
  | j + 1 =>
    { loaded State.reset ((List.range 26).map fun k => v.ob (26 * (j + 1) + k)) with
      pkt := (result .pktAccept (packetBefore v j)).pkt }

theorem packetBefore_ib (v : State) (j : Nat) {k : Nat} (h : k < 26) :
    (packetBefore v j).ib k = v.ob (26 * j + k) := by
  cases j with
  | zero =>
    rw [Nat.mul_zero, Nat.zero_add]
    exact loaded_ob _ _ _ _ h
  | succ j =>
    rw [packetBefore, (ib_collectors _ LichCollector.empty _ (TextCollector.idle 0) k).2.1, loaded_map _ _ _ h]

theorem witness_PacketRoundTrip :
    let s := st [255] (List.replicate 23 0x41)
    let t := result (.pktBuild 23) s
    let u := loaded State.reset ((List.range 26).map t.ob)
    let v := result (.pktChunk 26) u
    let before := packetBefore v
    let after := fun j => result .pktAccept (before j)
    let n := ((26 : BitVec 16).toNat + 24) / 25
    (23 : BitVec 16).toNat ≤ 822 ∧ (s.argReg 0).toNat < 256 ∧ exec (.pktBuild 23) s = .next t
    ∧ (26 : BitVec 16).toNat = (23 : BitVec 16).toNat + 3 ∧ (∀ k < (26 : BitVec 16).toNat, u.ib k = t.ob k)
    ∧ exec (.pktChunk 26) u = .next v ∧ (before 0).pkt.active = false ∧ (before 0).pkt.exp = 0
    ∧ (∀ j < n, ∀ k < 26, (before j).ib k = v.ob (26 * j + k))
    ∧ (∀ j < n, exec .pktAccept (before j) = .next (after j))
    ∧ (∀ j, j + 1 < n → (before (j + 1)).pkt = (after j).pkt) ∧ n = 2 := by
  exact ⟨by decide, by decide, exec_result (.pktBuild 23) _, by decide, loaded_ob _ _ _, exec_result (.pktChunk 26) _,
    rfl, rfl, fun j _ k hk => packetBefore_ib _ j hk, fun j _ => exec_result .pktAccept _, fun j _ => rfl, by decide⟩

theorem witness_IpBuildAndParse :
    ((st [0xFFFF] []).argReg 0).toNat < 2 ^ 16 ∧ 2 ^ 16 ≤ ((st [0x10000] []).argReg 0).toNat
    ∧ (st [] [0x6D, 0x31, 0x37, 0x20]).ibytes 0 4 ≠ [0x4D, 0x31, 0x37, 0x20]
    ∧ (st [] [0x4D, 0x31, 0x37, 0x20]).ibytes 0 4 = [0x4D, 0x31, 0x37, 0x20]
    ∧ (let s := st [0x1234] (lsfD28 ++ voice)
       let t := result .ipBuild s
       let s' := loaded State.reset ((List.range 54).map t.ob)
       (s.argReg 0).toNat < 2 ^ 16 ∧ exec .ipBuild s = .next t ∧ (∀ k < 54, s'.ib k = t.ob k)
       ∧ versionCode (beNat (s.ibytes 12 14)) = 0 ∧ s'.v2En = true)
    ∧ (let s := st [0x1234] (List.replicate 46 0xFF)
       let t := result .ipBuild s
       let s' := loaded State.reset ((List.range 54).map t.ob)
       exec .ipBuild s = .next t ∧ (∀ k < 54, s'.ib k = t.ob k)
       ∧ versionCode (beNat (s.ibytes 12 14)) = 1 ∧ s'.v3En = true) := by
  exact ⟨by decide, by decide, by decide, by decide,
    ⟨by decide, exec_result .ipBuild _, loaded_ob _ _ _, by decide, rfl⟩,
    exec_result .ipBuild _, loaded_ob _ _ _, by decide, rfl⟩

/-- IBUF holding a frame whose received soft values are all `v`: mirrored where the randomizer mirrors them. -/
def flatFrame (v : Byte) (arg0 : Word) : State :=
  loaded (st [arg0] []) ((List.range 384).map fun k =>
    if (randSeq.getD ((k - 16) / 8) 0).getLsbD (7 - (k - 16) % 8) then BitVec.ofNat 8 (255 - v.toNat) else v)

/-- The dewhitened, deinterleaved soft bits of the frame in IBUF (49_pipeline_bert.md R322). -/
def received (s : State) : Bytes := (List.range 368).map fun i =>
  let j := (45 * i + 92 * i ^ 2) % 368
  if (randSeq.getD (j / 8) 0).getLsbD (7 - j % 8) then BitVec.ofNat 8 (255 - (s.ib (16 + j)).toNat) else s.ib (16 + j)

theorem flatFrame_received (v : Byte) (arg0 : Word) : received (flatFrame v arg0) = List.replicate 368 v := by
  refine List.ext_getElem (by simp [received]) fun i h1 h2 => ?_
  have hj : (45 * i + 92 * i ^ 2) % 368 < 368 := Nat.mod_lt _ (by omega)
  simp only [received, List.getElem_map, List.getElem_range, List.getElem_replicate]
  rw [flatFrame, loaded_map _ _ _ (by omega : 16 + (45 * i + 92 * i ^ 2) % 368 < 384), Nat.add_sub_cancel_left]
  split
  · refine BitVec.eq_of_toNat_eq ?_
    have := v.isLt
    simp only [BitVec.toNat_ofNat]
    omega
  · rfl

theorem witness_ReceiveStreamCommand :
    ((flatFrame 0 0xFFFF).argReg 0).toNat < 2 ^ 16
    ∧ (let s := flatFrame 255 0x1FFFF
       2 ^ 16 ≤ (s.argReg 0).toNat ∧ (s.argReg 0).toNat < 2 ^ 17
       ∧ (lichSoftDecode hw (slice (received s) 0 96)).bad = true)
    ∧ (let s := flatFrame 0 0x10000
       2 ^ 16 ≤ (s.argReg 0).toNat ∧ (s.argReg 0).toNat < 2 ^ 17
       ∧ (lichSoftDecode hw (slice (received s) 0 96)).bad = false)
    ∧ 2 ^ 17 ≤ ((st [0x20000] []).argReg 0).toNat := by
  have hs : ∀ v : Byte, slice (List.replicate 368 v) 0 96 = List.replicate 96 v := fun v => by simp [slice]
  refine ⟨by decide, ⟨by decide, by decide, ?_⟩, ⟨by decide, by decide, ?_⟩, by decide⟩
  · rw [flatFrame_received, hs]
    exact lichSoftDecode_ones
  · rw [flatFrame_received, hs]
    exact lichSoftDecode_zeros

theorem witness_PipelineRoundTrip :
    let s := st [] lsfD28
    (let t := result .lsfTx s
     exec .lsfTx s = .next t ∧ SoftImage t (loaded s ((List.range 384).map fun k => softBit (t.obBit k))) 16 384)
    ∧ (let t := result .strTx s
       let s' := loaded (st [0xFFFF] []) ((List.range 384).map fun k => softBit (t.obBit k))
       exec .strTx s = .next t ∧ SoftImage t s' 16 384 ∧ (s'.argReg 0).toNat < 2 ^ 16)
    ∧ (let t := result .pktTx s
       exec .pktTx s = .next t ∧ SoftImage t (loaded s ((List.range 384).map fun k => softBit (t.obBit k))) 16 384) :=
  ⟨⟨exec_result .lsfTx _, loaded_soft _ _ _ _⟩, ⟨exec_result .strTx _, loaded_soft _ _ _ _, by decide⟩,
    exec_result .pktTx _, loaded_soft _ _ _ _⟩

theorem witness_BertCommands :
    ((st [511] []).argReg 0).toNat < 512 ∧ 512 ≤ ((st [512] []).argReg 0).toNat
    ∧ kept (false :: List.replicate 11 true) 402 = 368 := by
  decide

end Sys2Proof.Tests
end

section
/-! # The pseudocode of every command

`exec` completes a command's pseudocode; what a proof says of a run it says of `exec` through the lemmas here. -/

namespace Sys2Proof.Machine

/-- The pseudocode of a command, on this hardware. -/
def commandRun : Instr → State → Run
  | .nop => State.ok
  | .clear => clearRun
  | .crc16 len => crc16Run len
  | .crc16Chk len => crc16ChkRun len
  | .b40Enc len => b40EncRun hw len
  | .b40Dec => b40DecRun hw
  | .b40Decb => b40DecbRun hw
  | .typeBv2 => typeBv2Run
  | .typePv2 => typePv2Run
  | .typeBv3 => typeBv3Run
  | .typePv3 => typePv3Run
  | .typeDet => typeDetRun
  | .golayEnc => golayEncRun hw
  | .golayDec => golayDecRun hw
  | .golaySdec => golaySdecRun hw
  | .lichEnc => lichEncRun hw
  | .lichSdec => lichSdecRun hw
  | .convEnc len sched => convEncRun hw len sched
  | .punct len sched => punctRun hw len sched
  | .viterbi len sched => viterbiRun hw len sched
  | .intlv len soft => intlvRun len soft
  | .rand len soft => randRun hw len soft
  | .prbsGen len => prbsGenRun hw len
  | .berCnt len => berCntRun len
  | .lsfBuild => lsfBuildRun
  | .lsfParse => lsfParseRun
  | .metaPosPack => metaPosPackRun
  | .metaPosUnpack => metaPosUnpackRun
  | .metaEcsPack => metaEcsPackRun
  | .metaEcsUnpack => metaEcsUnpackRun
  | .aesivCtr => aesivCtrRun
  | .textPack len => textPackRun hw len
  | .textReset => textResetRun
  | .textAccept => textAcceptRun hw
  | .lichChunk => lichChunkRun hw
  | .lichReset => lichResetRun
  | .lichAccept => lichAcceptRun
  | .lichAssemble => lichAssembleRun
  | .lichRx => lichRxRun hw
  | .pktBuild len => pktBuildRun len
  | .pktChunk len => pktChunkRun len
  | .pktReset => pktResetRun
  | .pktAccept => pktAcceptRun
  | .pktFlush => pktFlushRun
  | .ipBuild => ipBuildRun
  | .ipParse => ipParseRun
  | .lsfTx => lsfTxRun hw
  | .lsfRx => lsfRxRun hw
  | .strTx => strTxRun hw
  | .strRx => strRxRun hw
  | .pktTx => pktTxRun hw
  | .pktRx => pktRxRun hw
  | .bertTx => bertTxRun hw
  | .bertRx => bertRxRun hw

/-- A command runs its pseudocode and completes (60_exceptions.md R350). -/
theorem exec_eq_finish (i : Instr) (s : State) : exec i s = (commandRun i s).finish := by cases i <;> rfl

/-- What a command answers: the end of its pseudocode, completed (60_exceptions.md R350 step 4). -/
theorem exec_eq_next_iff (i : Instr) (s t : State) :
    exec i s = .next t ↔ t = (commandRun i s).state.complete (commandRun i s).error := by
  rw [exec_eq_finish, Run.finish_eq, Host.Outcome.next.injEq]
  exact eq_comm

end Sys2Proof.Machine
end

section
/-! # Kept counts (45_conv_viterbi.md R202, R203; O35)

A keep mask is periodic, so a kept count over any number of positions is the count over one period, times the number
of whole periods, and the count over the rest. -/

namespace Sys2Proof.Machine

/-- The mask starts again after each period (45_conv_viterbi.md R202). -/
theorem maskBit_period_add (P : Bits) (q i : Nat) : maskBit P (P.length * q + i) = maskBit P i := by
  rw [maskBit, Nat.mul_add_mod, maskBit]

/-- The positions kept of `n + m` are those kept of the first `n` and those kept of the `m` after them. -/
theorem kept_add (P : Bits) (n m : Nat) :
    kept P (n + m) = kept P n + (List.range m).countP fun i => maskBit P (n + i) := by
  rw [kept, List.range_add, List.countP_append, List.countP_map]
  rfl

/-- A mask keeps at most every position (45_conv_viterbi.md R203). -/
theorem kept_le (P : Bits) (n : Nat) : kept P n ≤ n := by
  have := List.countP_le_length (p := maskBit P) (l := List.range n)
  rwa [List.length_range] at this

/-- After whole periods the count goes on as from the start. -/
theorem kept_period_mul_add (P : Bits) (q r : Nat) :
    kept P (P.length * q + r) = kept P (P.length * q) + kept P r := by
  rw [kept_add]
  simp only [maskBit_period_add]
  rfl

/-- `q` whole periods keep `q` times what one keeps. -/
theorem kept_period_mul (P : Bits) (q : Nat) : kept P (P.length * q) = q * kept P P.length := by
  induction q with
  | zero => simp [kept]
  | succ q ih => rw [Nat.mul_succ, kept_period_mul_add, ih, Nat.succ_mul]

/-- Within the first period the kept positions are the 1s of the mask so far. -/
theorem kept_of_le_period (P : Bits) {n : Nat} (h : n ≤ P.length) : kept P n = (P.take n).count true := by
  induction n with
  | zero => rfl
  | succ n ih =>
    have hbit : maskBit P n = P[n] := by
      rw [maskBit, Nat.mod_eq_of_lt h, List.getD_eq_getElem?_getD, List.getElem?_eq_getElem h, Option.getD_some]
    rw [kept_add, ih (by omega), List.take_succ_eq_append_getElem h, List.count_append]
    cases hb : P[n] <;> simp [hbit, hb]

/-- A kept count by periods: the 1s of the mask for every whole period, and those of its beginning for the rest
(45_conv_viterbi.md R202, R203). -/
theorem kept_eq_periods {P : Bits} (hP : 0 < P.length) (n : Nat) :
    kept P n = n / P.length * P.count true + (P.take (n % P.length)).count true := by
  have hrest := kept_of_le_period P (Nat.mod_lt n hP).le
  have hwhole := kept_of_le_period P (Nat.le_refl _)
  rw [List.take_length] at hwhole
  conv_lhs => rw [← Nat.div_add_mod n P.length]
  rw [kept_period_mul_add, kept_period_mul, hwhole, hrest]

/-- conv of N bits is 2(N+4) bits (45_conv_viterbi.md R201). -/
@[simp] theorem conv_length (u : Bits) : (conv u).length = 2 * (u.length + 4) := by simp [conv]

/-- The number of coded bits a mask keeps of an input of N bits (45_conv_viterbi.md R201, R203). -/
theorem puncture_conv_length (P u : Bits) : (puncture P (conv u)).length = kept P (2 * (u.length + 4)) := by
  rw [puncture_length, conv_length]

/-- This hardware's parameter values meet the constraints of 45_conv_viterbi.md R202 and 00_scope.md R6. -/
theorem paramsOk_hw : ParamsOk hw := by
  rw [ParamsOk, kept_eq_periods (by decide), kept_eq_periods (by decide), kept_eq_periods (by decide)]
  decide

/-- Under any parameter values that meet the constraints the three masks keep the frame sizes (49_pipeline_bert.md
R332). -/
theorem ParamsOk.frameSizes {P : Params} (h : ParamsOk P) :
    (∀ u : Bits, u.length = 240 → (puncture (schedMask P 1) (conv u)).length = 368)
    ∧ (∀ u : Bits, u.length = 144 → (puncture (schedMask P 2) (conv u)).length = 272)
    ∧ (∀ u : Bits, u.length = 206 → (puncture (schedMask P 3) (conv u)).length = 368)
    ∧ [(schedMask P 1).length, (schedMask P 2).length, (schedMask P 3).length] = [61, 12, 8] := by
  obtain ⟨⟨len1, kept1⟩, ⟨len2, kept2⟩, ⟨len3, kept3⟩, -⟩ := h
  refine ⟨fun u hu => ?_, fun u hu => ?_, fun u hu => ?_, ?_⟩
  · rw [puncture_conv_length, hu]
    exact kept1
  · rw [puncture_conv_length, hu]
    exact kept2
  · rw [puncture_conv_length, hu]
    exact kept3
  · simp [schedMask, len1, len2, len3]

/-- Settles O35: the frame sizes come from the constraints on the masks, this hardware's kept counts from the periods of
its masks. -/
theorem keptCounts : Obligations.KeptCounts := by
  unfold Obligations.KeptCounts
  refine ⟨by decide, paramsOk_hw, fun P h => h.frameSizes, ?_⟩
  rw [funext (kept_eq_periods (P := schedMask hw 0) (by decide)),
    funext (kept_eq_periods (P := schedMask hw 1) (by decide)),
    funext (kept_eq_periods (P := schedMask hw 2) (by decide)),
    funext (kept_eq_periods (P := schedMask hw 3) (by decide))]
  decide

end Sys2Proof.Machine
end

section
/-! # What a command depends on (00_scope.md R11, 10_state.md R37, R39; O17)

Two runs of one command, from two states that agree in what a command may read. Every write of the pseudocode writes
the same value in both runs, so it keeps the relation `SameEffect` between what the two runs have done so far; every
condition, operand and error is the same in both. -/

namespace Sys2Proof.Machine

/-! ## The same operands -/

namespace SameInputs

variable {s s' : State} (h : SameInputs s s')
include h

theorem arg : s'.arg = s.arg := by
  obtain ⟨harg, -⟩ := h
  exact harg

theorem ctrl : s'.ctrl = s.ctrl := by
  obtain ⟨-, hctrl, -⟩ := h
  exact hctrl

theorem lich : s'.lich = s.lich := by
  obtain ⟨-, -, hlich, -⟩ := h
  exact hlich

theorem pkt : s'.pkt = s.pkt := by
  obtain ⟨-, -, -, hpkt, -⟩ := h
  exact hpkt

theorem text : s'.text = s.text := by
  obtain ⟨-, -, -, -, htext, -⟩ := h
  exact htext

theorem ib {i : Nat} (hi : i < 1024) : s'.ib i = s.ib i := by
  obtain ⟨-, -, -, -, -, hib⟩ := h
  exact hib i hi

theorem argReg (n : Fin 8) : s'.argReg n = s.argReg n := by rw [State.argReg, State.argReg, h.arg]

theorem argHigh (n : Fin 8) (lo : Nat) : s'.argHigh n lo = s.argHigh n lo := by
  rw [State.argHigh, State.argHigh, h.argReg]

theorem argField (n : Fin 8) (w : Nat) : s'.argField n w = s.argField n w := by
  rw [State.argField, State.argField, h.argReg]

theorem argAddr (lo hi : Fin 8) : s'.argAddr lo hi = s.argAddr lo hi := by
  rw [State.argAddr, State.argAddr, h.argField, h.argReg]

/-- A byte range inside IBUF. -/
theorem ibytes {i j : Nat} (hj : j ≤ 1024) : s'.ibytes i j = s.ibytes i j := by
  refine List.map_congr_left fun k hk => h.ib ?_
  have := List.mem_range.1 hk
  omega

/-- A bit string inside IBUF. -/
theorem ibits {n : Nat} (hn : n ≤ 8192) : s'.ibits 0 n = s.ibits 0 n := by
  rw [State.ibits, State.ibits, h.ibytes (by omega)]

theorem lsfCheck (L : Bytes) : s'.lsfCheck L = s.lsfCheck L := by
  simp only [State.lsfCheck_eq, State.v2En, State.v3En, h.ctrl]

theorem ipCheck (F L : Bytes) : s'.ipCheck F L = s.ipCheck F L := by
  rw [State.ipCheck, State.ipCheck, h.lsfCheck]

theorem positionOk : s'.positionOk = s.positionOk := by
  unfold State.positionOk State.altitudeRaw State.argReg
  rw [h.arg]

theorem positionMeta : s'.positionMeta = s.positionMeta := by
  simp only [State.positionMeta, State.altitudeRaw, h.argReg]

end SameInputs

/-! ## The same effect -/

/-- Two runs, from s and from s', have come to u and to u' with the same effect: the collectors are the same, and each
result register and each byte of OBUF has the same value in both or has changed in neither. -/
structure SameEffect (s s' u u' : State) : Prop where
  lich : u'.lich = u.lich
  pkt : u'.pkt = u.pkt
  text : u'.text = u.text
  res : ∀ n, u'.resReg n = u.resReg n ∨ (u.resReg n = s.resReg n ∧ u'.resReg n = s'.resReg n)
  ob : ∀ k, u'.ob k = u.ob k ∨ (u.ob k = s.ob k ∧ u'.ob k = s'.ob k)

/-- Two runs have ended with the same error, or both with none, and with the same effect. -/
structure SameOutcome (s s' : State) (r r' : Run) : Prop where
  error : r'.error = r.error
  effect : SameEffect s s' r.state r'.state

/-- A command's pseudocode does the same from any two states that agree in what a command may read. -/
def DependsOnlyOnInputs (run : State → Run) : Prop :=
  ∀ s s' : State, SameInputs s s' → SameOutcome s s' (run s) (run s')

/-- Nothing has been done yet. -/
theorem SameInputs.start {s s' : State} (h : SameInputs s s') : SameEffect s s' s s' :=
  ⟨h.lich, h.pkt, h.text, fun _ => .inr ⟨rfl, rfl⟩, fun _ => .inr ⟨rfl, rfl⟩⟩

/-- A command that raises before it writes anything. -/
theorem SameInputs.raise {s s' : State} (h : SameInputs s s') (e : Err) : SameOutcome s s' (s.raise e) (s'.raise e) :=
  ⟨rfl, h.start⟩

namespace SameEffect

variable {s s' u u' : State} (e : SameEffect s s' u u')
include e

/-! ### Each write keeps it -/

theorem setRes (n : Fin 8) (v : Word) : SameEffect s s' (u.setRes n v) (u'.setRes n v) := by
  refine ⟨e.lich, e.pkt, e.text, fun m => ?_, e.ob⟩
  rw [State.setRes_resReg, State.setRes_resReg]
  by_cases hm : m = n
  · rw [if_pos hm, if_pos hm]
    exact .inl rfl
  · rw [if_neg hm, if_neg hm]
    exact e.res m

theorem setResNat (n : Fin 8) (v : Nat) : SameEffect s s' (u.setResNat n v) (u'.setResNat n v) := e.setRes n _

theorem setResAddr (lo hi : Fin 8) (n : Nat) : SameEffect s s' (u.setResAddr lo hi n) (u'.setResAddr lo hi n) :=
  (e.setResNat lo _).setResNat hi _

theorem setResBitmap (n : Fin 8) : SameEffect s s' (u.setResBitmap n) (u'.setResBitmap n) := by
  rw [State.setResBitmap, State.setResBitmap, e.lich]
  exact e.setRes n _

theorem clearRes : SameEffect s s' u.clearRes u'.clearRes :=
  ⟨e.lich, e.pkt, e.text, fun m => .inl (by rw [State.clearRes_resReg, State.clearRes_resReg]), e.ob⟩

theorem obWrite (i : Nat) (B : Bytes) : SameEffect s s' (u.obWrite i B) (u'.obWrite i B) := by
  refine ⟨e.lich, e.pkt, e.text, e.res, fun k => ?_⟩
  rw [State.obWrite_ob, State.obWrite_ob]
  by_cases hk : i ≤ k ∧ k < i + B.length
  · rw [if_pos hk, if_pos hk]
    exact .inl rfl
  · rw [if_neg hk, if_neg hk]
    exact e.ob k

theorem setLich (l : LichCollector) : SameEffect s s' (u.setLich l) (u'.setLich l) := ⟨rfl, e.pkt, e.text, e.res, e.ob⟩

theorem setPkt (p : PacketReassembler) : SameEffect s s' (u.setPkt p) (u'.setPkt p) :=
  ⟨e.lich, rfl, e.text, e.res, e.ob⟩

theorem setText (c : TextCollector) : SameEffect s s' (u.setText c) (u'.setText c) := ⟨e.lich, e.pkt, rfl, e.res, e.ob⟩

theorem writePacketAction (a : PacketAction) : SameEffect s s' (u.writePacketAction a) (u'.writePacketAction a) := by
  cases a with
  | stored => exact e.setResNat 0 0
  | duplicate => exact e.setResNat 0 1
  | complete Q => exact (((e.obWrite 0 Q).setResNat 0 2).setRes 1 _).setResNat 2 _
  | restarted => exact e.setResNat 0 3

theorem writeTextAction (a : TextAction) : SameEffect s s' (u.writeTextAction a) (u'.writeTextAction a) := by
  cases a with
  | stored => exact e.setResNat 0 0
  | duplicate => exact e.setResNat 0 1
  | complete T => exact ((e.obWrite 0 T).setResNat 0 2).setResNat 1 _
  | restarted => exact e.setResNat 0 3

theorem writeStream (d : LichDecoded) (payload : Bytes) (pm : Nat) :
    SameEffect s s' (u.writeStream d payload pm) (u'.writeStream d payload pm) :=
  (((((((e.obWrite 0 _).obWrite 6 _).setResNat 0 _).setResNat 1 _).setResNat 2 _).setResNat 3 _).setResNat 4 _).setRes
    5 _

/-! ### The end of the pseudocode -/

theorem ok : SameOutcome s s' u.ok u'.ok := ⟨rfl, e⟩

theorem raise (x : Err) : SameOutcome s s' (u.raise x) (u'.raise x) := ⟨rfl, e⟩

theorem raiseIf (x : Option Err) : SameOutcome s s' (u.raiseIf x) (u'.raiseIf x) := ⟨rfl, e⟩

end SameEffect

/-- Both runs take the same branch. The two decisions may have been made from different states, so they are not
literally the same. -/
theorem SameOutcome.branch {s s' : State} {c : Prop} {d d' : Decidable c} {r r' q q' : Run}
    (hr : c → SameOutcome s s' r r') (hq : ¬ c → SameOutcome s s' q q') :
    SameOutcome s s' (@ite _ c d r q) (@ite _ c d' r' q') := by
  by_cases hc : c
  · rw [if_pos hc, if_pos hc]
    exact hr hc
  · rw [if_neg hc, if_neg hc]
    exact hq hc

/-- SCHED is in the command word, so both runs pass or fail its check. -/
theorem SameOutcome.withSched {s s' : State} {sched : BitVec 4} {r r' : Run} (h : SameInputs s s')
    (hr : SameOutcome s s' r r') : SameOutcome s s' (withSched sched s r) (withSched sched s' r') :=
  .branch (fun _ => hr) fun _ => h.raise _

namespace DependsOnlyOnInputs

/-! ## Control (40_control.md) -/

theorem nop : DependsOnlyOnInputs State.ok := fun _ _ h => h.start.ok

theorem clear : DependsOnlyOnInputs clearRun := by
  intro s s' h
  simp only [clearRun, h.pkt, h.text]
  exact (((h.start.setLich _).setPkt _).setText _).clearRes.ok

/-! ## CRC (42_crc.md) -/

theorem crc16 (len : BitVec 16) : DependsOnlyOnInputs (crc16Run len) := by
  refine fun s s' h => .branch (fun _ => h.raise _) fun hlen => ?_
  rw [h.ibytes (Nat.not_lt.1 hlen)]
  exact ((h.start.setRes 0 _).obWrite 0 _).ok

theorem crc16Chk (len : BitVec 16) : DependsOnlyOnInputs (crc16ChkRun len) := by
  refine fun s s' h => .branch (fun _ => h.raise _) fun hlen => ?_
  have hmax : len.toNat ≤ 1024 := Nat.not_lt.1 fun hgt => hlen (.inr hgt)
  rw [h.ibytes hmax, h.ibytes (by omega)]
  exact ((h.start.setRes 0 _).setResNat 1 _).raiseIf _

/-! ## Addresses (41_address.md) -/

theorem b40Enc (P : Params) (len : BitVec 16) : DependsOnlyOnInputs (b40EncRun P len) := by
  refine fun s s' h => .branch (fun _ => h.raise _) fun hlen => ?_
  rw [h.ibytes (by omega)]
  cases b40Encode P (s.ibytes 0 len.toNat) with
  | error x => exact h.raise x
  | ok r => exact (((h.start.setResAddr 0 1 _).setResNat 2 _).obWrite 0 _).ok

/-- The part B40_DEC and B40_DECB share (41_address.md R135). -/
theorem b40DecodeCommon (P : Params) (n : Nat) : DependsOnlyOnInputs (b40DecodeCommon P n) := by
  intro s s' h
  unfold Machine.b40DecodeCommon
  cases b40Text P n with
  | error x => exact h.raise x
  | ok r => exact ((((h.start.obWrite 0 _).setResNat 0 _).setResNat 2 _).setResAddr 4 5 _).ok

theorem b40Dec (P : Params) : DependsOnlyOnInputs (b40DecRun P) := by
  intro s s' h
  simp only [b40DecRun, h.argHigh, h.argAddr]
  exact .branch (fun _ => h.raise _) fun _ => b40DecodeCommon P _ s s' h

theorem b40Decb (P : Params) : DependsOnlyOnInputs (b40DecbRun P) := by
  intro s s' h
  simp only [b40DecbRun, h.ibytes (show 6 ≤ 1024 by decide)]
  exact b40DecodeCommon P _ s s' h

/-! ## TYPE fields (43_type.md) -/

theorem typeBv2 : DependsOnlyOnInputs typeBv2Run := by
  intro s s' h
  simp only [typeBv2Run, h.argReg]
  exact .branch (fun _ => h.raise _) fun _ => (h.start.setRes 0 _).ok

theorem typePv2 : DependsOnlyOnInputs typePv2Run := by
  intro s s' h
  simp only [typePv2Run, h.argHigh, h.argField]
  exact .branch (fun _ => h.raise _) fun _ =>
    (((((((h.start.setRes 0 _).setRes 1 _).setRes 2 _).setRes 3 _).setRes 4 _).setRes 5 _).setResNat 6 _).ok

theorem typeBv3 : DependsOnlyOnInputs typeBv3Run := by
  intro s s' h
  simp only [typeBv3Run, h.argReg]
  exact .branch (fun _ => h.raise _) fun _ => (h.start.setRes 0 _).ok

theorem typePv3 : DependsOnlyOnInputs typePv3Run := by
  intro s s' h
  simp only [typePv3Run, h.argHigh, h.argField]
  exact .branch (fun _ => h.raise _) fun _ =>
    ((((((h.start.setRes 0 _).setRes 1 _).setRes 2 _).setRes 3 _).setRes 4 _).setResNat 6 _).ok

theorem typeDet : DependsOnlyOnInputs typeDetRun := by
  intro s s' h
  simp only [typeDetRun, h.argHigh, h.argField]
  exact .branch (fun _ => h.raise _) fun _ => ((h.start.setResNat 0 _).setResNat 1 _).ok

/-! ## Golay and LICH units (44_golay.md) -/

theorem golayEnc (P : Params) : DependsOnlyOnInputs (golayEncRun P) := by
  intro s s' h
  simp only [golayEncRun, h.argHigh, h.argField]
  exact .branch (fun _ => h.raise _) fun _ => (h.start.setRes 0 _).ok

theorem golayDec (P : Params) : DependsOnlyOnInputs (golayDecRun P) := by
  intro s s' h
  simp only [golayDecRun, h.argHigh, h.argField]
  refine .branch (fun _ => h.raise _) fun _ => ?_
  cases golayHard P (s.argField 0 24) with
  | some r => exact (((h.start.setRes 0 _).setResNat 1 _).setRes 2 _).ok
  | none => exact h.raise _

theorem golaySdec (P : Params) : DependsOnlyOnInputs (golaySdecRun P) := by
  intro s s' h
  simp only [golaySdecRun, h.ibytes (show 24 ≤ 1024 by decide)]
  exact ((((h.start.setRes 0 _).setResNat 1 _).setRes 2 _).setResNat 3 _).ok

theorem lichEnc (P : Params) : DependsOnlyOnInputs (lichEncRun P) := by
  intro s s' h
  simp only [lichEncRun, h.ibytes (show 6 ≤ 1024 by decide)]
  exact (h.start.obWrite 0 _).ok

theorem lichSdec (P : Params) : DependsOnlyOnInputs (lichSdecRun P) := by
  intro s s' h
  simp only [lichSdecRun, h.ibytes (show 96 ≤ 1024 by decide)]
  exact (((((h.start.obWrite 0 _).setRes 0 _).setResNat 1 _).setResNat 2 _).setResNat 3 _).ok

/-! ## Convolutional code (45_conv_viterbi.md) -/

theorem convEnc (P : Params) (len : BitVec 16) (sched : BitVec 4) : DependsOnlyOnInputs (convEncRun P len sched) := by
  refine fun s s' h => .withSched h (.branch (fun _ => h.raise _) fun hlen => ?_)
  have hmax : len.toNat ≤ 508 := Nat.not_lt.1 hlen
  rw [h.ibits (by omega)]
  exact ((h.start.obWrite 0 _).setResNat 0 _).ok

theorem punct (P : Params) (len : BitVec 16) (sched : BitVec 4) : DependsOnlyOnInputs (punctRun P len sched) := by
  refine fun s s' h => .withSched h (.branch (fun _ => h.raise _) fun hlen => ?_)
  rw [h.ibits (Nat.not_lt.1 hlen)]
  exact ((h.start.obWrite 0 _).setResNat 0 _).ok

/-- The soft bytes VITERBI reads are at most one for each coded bit, so they lie inside IBUF. -/
theorem viterbi (P : Params) (len : BitVec 16) (sched : BitVec 4) : DependsOnlyOnInputs (viterbiRun P len sched) := by
  refine fun s s' h => .withSched h (.branch (fun _ => h.raise _) fun hlen => ?_)
  have hmax : len.toNat ≤ 508 := Nat.not_lt.1 hlen
  have hkept := kept_le (schedMask P sched) (2 * (len.toNat + 4))
  dsimp only
  rw [h.ibytes (by omega)]
  exact ((((h.start.obWrite 0 _).setResNat 0 _).setResNat 1 _).setResNat 2 _).ok

/-! ## Interleaver, randomizer, PRBS (46_interleave_randomize_prbs.md) -/

theorem intlv (len : BitVec 16) (soft : Bool) : DependsOnlyOnInputs (intlvRun len soft) := by
  intro s s' h
  simp only [intlvRun, h.ibytes (show 368 ≤ 1024 by decide), h.ibytes (show 46 ≤ 1024 by decide)]
  exact .branch (fun _ => h.raise _) fun _ =>
    .branch (fun _ => (h.start.obWrite 0 _).ok) fun _ => (h.start.obWrite 0 _).ok

theorem rand (P : Params) (len : BitVec 16) (soft : Bool) : DependsOnlyOnInputs (randRun P len soft) := by
  intro s s' h
  simp only [randRun, h.ibytes (show 368 ≤ 1024 by decide), h.ibytes (show 46 ≤ 1024 by decide)]
  exact .branch (fun _ => h.raise _) fun _ =>
    .branch (fun _ => (h.start.obWrite 0 _).ok) fun _ => (h.start.obWrite 0 _).ok

theorem prbsGen (P : Params) (len : BitVec 16) : DependsOnlyOnInputs (prbsGenRun P len) := by
  intro s s' h
  simp only [prbsGenRun, h.argHigh, h.argField]
  exact .branch (fun _ => h.raise _) fun _ =>
    .branch (fun _ => h.raise _) fun _ => ((h.start.obWrite 0 _).setRes 0 _).ok

theorem berCnt (len : BitVec 16) : DependsOnlyOnInputs (berCntRun len) := by
  intro s s' h
  simp only [berCntRun, h.ibytes (show 512 ≤ 1024 by decide), h.ibytes (show 1024 ≤ 1024 by decide)]
  exact .branch (fun _ => h.raise _) fun _ => ((h.start.setResNat 0 _).setResNat 1 _).ok

/-! ## LSF and META (47_lsf_meta.md) -/

theorem lsfBuild : DependsOnlyOnInputs lsfBuildRun := by
  intro s s' h
  simp only [lsfBuildRun, h.ibytes (show 28 ≤ 1024 by decide)]
  exact (((h.start.obWrite 0 _).obWrite 28 _).setRes 0 _).ok

theorem lsfParse : DependsOnlyOnInputs lsfParseRun := by
  intro s s' h
  simp only [lsfParseRun, h.ibytes (show 30 ≤ 1024 by decide), h.lsfCheck]
  exact ((((((h.start.setRes 0 _).setResNat 1 _).setResNat 2 _).setRes 3 _).setResAddr 4 5 _).setResAddr 6 7 _).raiseIf _

theorem metaPosPack : DependsOnlyOnInputs metaPosPackRun := by
  intro s s' h
  simp only [metaPosPackRun, h.positionOk, h.positionMeta]
  exact .branch (fun _ => (h.start.obWrite 0 _).ok) fun _ => h.raise _

theorem metaPosUnpack : DependsOnlyOnInputs metaPosUnpackRun := by
  intro s s' h
  simp only [metaPosUnpackRun, h.ibytes (show 14 ≤ 1024 by decide)]
  exact ((((((((h.start.setResNat 0 _).setResNat 1 _).setRes 2 _).setRes 3 _).setRes 4 _).setResNat 5 _).setResNat 6
    _).setResNat 7 _).ok

theorem metaEcsPack : DependsOnlyOnInputs metaEcsPackRun := by
  intro s s' h
  simp only [metaEcsPackRun, h.ibytes (show 12 ≤ 1024 by decide)]
  exact ((h.start.obWrite 0 _).obWrite 12 _).ok

theorem metaEcsUnpack : DependsOnlyOnInputs metaEcsUnpackRun := by
  intro s s' h
  simp only [metaEcsUnpackRun, h.ibytes (show 6 ≤ 1024 by decide), h.ibytes (show 12 ≤ 1024 by decide),
    h.ibytes (show 14 ≤ 1024 by decide)]
  exact ((((h.start.obWrite 0 _).setResNat 0 _).setResAddr 1 2 _).setResAddr 3 4 _).ok

theorem aesivCtr : DependsOnlyOnInputs aesivCtrRun := by
  intro s s' h
  simp only [aesivCtrRun, h.argHigh, h.argField, h.ibytes (show 14 ≤ 1024 by decide)]
  exact .branch (fun _ => h.raise _) fun _ => ((h.start.obWrite 0 _).obWrite 14 _).ok

theorem textPack (P : Params) (len : BitVec 16) : DependsOnlyOnInputs (textPackRun P len) := by
  refine fun s s' h => .branch (fun _ => h.raise _) fun hlen => ?_
  rw [h.ibytes (by omega)]
  exact (((h.start.obWrite 0 _).setResNat 0 _).setResNat 1 _).ok

theorem textReset : DependsOnlyOnInputs textResetRun := by
  intro s s' h
  simp only [textResetRun, h.text]
  exact (h.start.setText _).ok

theorem textAccept (P : Params) : DependsOnlyOnInputs (textAcceptRun P) := by
  intro s s' h
  unfold textAcceptRun
  rw [h.text, h.ibytes (show 14 ≤ 1024 by decide)]
  obtain ⟨c, x | a⟩ := Machine.textAccept P s.text (s.ibytes 0 14)
  · exact (h.start.setText c).raise x
  · exact ((((h.start.setText c).writeTextAction a).setRes 2 _).setRes 3 _).ok

/-! ## LICH, packets and IP frames (48_stream_packet_ip.md) -/

theorem lichChunk (P : Params) : DependsOnlyOnInputs (lichChunkRun P) := by
  intro s s' h
  simp only [lichChunkRun, h.argReg, h.ibytes (show 30 ≤ 1024 by decide)]
  exact .branch (fun _ => h.raise _) fun _ => ((h.start.obWrite 0 _).obWrite 6 _).ok

theorem lichReset : DependsOnlyOnInputs lichResetRun := by
  intro s s' h
  simp only [lichResetRun, h.argHigh, h.argField]
  exact .branch (fun _ => h.raise _) fun _ => (h.start.setLich _).ok

theorem lichAccept : DependsOnlyOnInputs lichAcceptRun := by
  intro s s' h
  simp only [lichAcceptRun, h.argReg, h.argHigh, h.argField, h.lich, h.ibytes (show 5 ≤ 1024 by decide)]
  exact .branch (fun _ => h.raise _) fun _ => (((h.start.setLich _).setResBitmap 0).setResNat 1 _).raiseIf _

theorem lichAssemble : DependsOnlyOnInputs lichAssembleRun := by
  intro s s' h
  simp only [lichAssembleRun, h.lich, h.lsfCheck]
  exact .branch (fun _ => (h.start.setResBitmap 0).raise _) fun _ =>
    (((((h.start.setResBitmap 0).obWrite 0 _).setRes 1 _).setResNat 2 _).setRes 3 _).raiseIf _

theorem lichRx (P : Params) : DependsOnlyOnInputs (lichRxRun P) := by
  intro s s' h
  simp only [lichRxRun, h.argHigh, h.argField, h.lich, h.ibytes (show 96 ≤ 1024 by decide)]
  exact .branch (fun _ => h.raise _) fun _ =>
    ((((((h.start.obWrite 0 _).setResNat 2 _).setRes 3 _).setLich _).setResBitmap 0).setResNat 1 _).raiseIf _

theorem pktBuild (len : BitVec 16) : DependsOnlyOnInputs (pktBuildRun len) := by
  intro s s' h
  simp only [pktBuildRun, h.argHigh, h.argField]
  refine .branch (fun _ => h.raise _) fun hlen => .branch (fun _ => h.raise _) fun _ => ?_
  rw [h.ibytes (by omega)]
  exact ((((h.start.obWrite 0 _).setResNat 0 _).setResNat 1 _).setRes 2 _).ok

theorem pktChunk (len : BitVec 16) : DependsOnlyOnInputs (pktChunkRun len) := by
  refine fun s s' h => .branch (fun _ => h.raise _) fun _ => .branch (fun _ => h.raise _) fun hlen => ?_
  rw [h.ibytes (by omega)]
  exact ((h.start.obWrite 0 _).setResNat 0 _).ok

theorem pktReset : DependsOnlyOnInputs pktResetRun := by
  intro s s' h
  simp only [pktResetRun, h.pkt]
  exact (h.start.setPkt _).ok

theorem pktAccept : DependsOnlyOnInputs pktAcceptRun := by
  intro s s' h
  unfold pktAcceptRun
  rw [h.pkt, h.ibytes (show 26 ≤ 1024 by decide)]
  obtain ⟨p, x | a⟩ := packetAccept s.pkt (s.ibytes 0 26)
  · exact (h.start.setPkt p).raise x
  · exact (((h.start.setPkt p).writePacketAction a).setRes 3 _).ok

theorem pktFlush : DependsOnlyOnInputs pktFlushRun := by
  intro s s' h
  simp only [pktFlushRun, h.pkt]
  exact .branch (fun _ => (h.start.setPkt _).raise _) fun _ => h.start.ok

theorem ipBuild : DependsOnlyOnInputs ipBuildRun := by
  intro s s' h
  simp only [ipBuildRun, h.argHigh, h.argField, h.ibytes (show 28 ≤ 1024 by decide), h.ibytes (show 46 ≤ 1024 by decide)]
  exact .branch (fun _ => h.raise _) fun _ => (((h.start.obWrite 0 _).obWrite 52 _).setRes 0 _).ok

theorem ipParse : DependsOnlyOnInputs ipParseRun := by
  intro s s' h
  simp only [ipParseRun, h.ibytes (show 54 ≤ 1024 by decide), h.ipCheck]
  exact .branch (fun _ => h.raise _) fun _ =>
    (((((((((h.start.obWrite 0 _).obWrite 28 _).obWrite 30 _).setResNat 0 _).setRes 1 _).setResNat 2 _).setRes 3
      _).setResNat 4 _).setRes 5 _).raiseIf _

/-! ## Pipelines and BERT (49_pipeline_bert.md) -/

theorem lsfTx (P : Params) : DependsOnlyOnInputs (lsfTxRun P) := by
  intro s s' h
  simp only [lsfTxRun, h.ibytes (show 28 ≤ 1024 by decide)]
  exact ((h.start.obWrite 0 _).setRes 0 _).ok

theorem lsfRx (P : Params) : DependsOnlyOnInputs (lsfRxRun P) := by
  intro s s' h
  simp only [lsfRxRun, h.ibytes (show 384 ≤ 1024 by decide), h.lsfCheck]
  exact ((((((h.start.obWrite 0 _).setRes 0 _).setResNat 1 _).setResNat 2 _).setResNat 3 _).setRes 4 _).raiseIf _

theorem strTx (P : Params) : DependsOnlyOnInputs (strTxRun P) := by
  intro s s' h
  simp only [strTxRun, h.ibytes (show 6 ≤ 1024 by decide), h.ibytes (show 24 ≤ 1024 by decide)]
  exact (h.start.obWrite 0 _).ok

theorem strRx (P : Params) : DependsOnlyOnInputs (strRxRun P) := by
  intro s s' h
  simp only [strRxRun, h.argHigh, h.argReg, h.argField, h.lich, h.ibytes (show 384 ≤ 1024 by decide)]
  exact .branch (fun _ => h.raise _) fun _ =>
    .branch (fun _ => (((h.start.writeStream _ _ _).setLich _).setResNat 6 _).ok) fun _ =>
      (h.start.writeStream _ _ _).ok

theorem pktTx (P : Params) : DependsOnlyOnInputs (pktTxRun P) := by
  intro s s' h
  simp only [pktTxRun, h.ibytes (show 26 ≤ 1024 by decide)]
  exact (h.start.obWrite 0 _).ok

theorem pktRx (P : Params) : DependsOnlyOnInputs (pktRxRun P) := by
  intro s s' h
  simp only [pktRxRun, h.ibytes (show 384 ≤ 1024 by decide)]
  exact ((((h.start.obWrite 0 _).setResNat 0 _).setResNat 1 _).setRes 2 _).ok

theorem bertTx (P : Params) : DependsOnlyOnInputs (bertTxRun P) := by
  intro s s' h
  simp only [bertTxRun, h.argHigh, h.argField]
  exact .branch (fun _ => h.raise _) fun _ =>
    .branch (fun _ => h.raise _) fun _ => ((h.start.obWrite 0 _).setRes 0 _).ok

theorem bertRx (P : Params) : DependsOnlyOnInputs (bertRxRun P) := by
  intro s s' h
  simp only [bertRxRun, h.argHigh, h.argField, h.ibytes (show 384 ≤ 1024 by decide)]
  exact .branch (fun _ => h.raise _) fun _ =>
    .branch (fun _ => h.raise _) fun _ =>
      ((((h.start.obWrite 0 _).setResNat 0 _).setResNat 1 _).setResNat 2 _).ok

end DependsOnlyOnInputs

/-! ## Every command -/

/-- The pseudocode of every command reads nothing but ARG, CTRL, IBUF and the collectors (10_state.md R37, R39). -/
theorem commandRun_dependsOnlyOnInputs (i : Instr) : DependsOnlyOnInputs (commandRun i) := by
  cases i with
  | nop => exact .nop
  | clear => exact .clear
  | crc16 len => exact .crc16 len
  | crc16Chk len => exact .crc16Chk len
  | b40Enc len => exact .b40Enc hw len
  | b40Dec => exact .b40Dec hw
  | b40Decb => exact .b40Decb hw
  | typeBv2 => exact .typeBv2
  | typePv2 => exact .typePv2
  | typeBv3 => exact .typeBv3
  | typePv3 => exact .typePv3
  | typeDet => exact .typeDet
  | golayEnc => exact .golayEnc hw
  | golayDec => exact .golayDec hw
  | golaySdec => exact .golaySdec hw
  | lichEnc => exact .lichEnc hw
  | lichSdec => exact .lichSdec hw
  | convEnc len sched => exact .convEnc hw len sched
  | punct len sched => exact .punct hw len sched
  | viterbi len sched => exact .viterbi hw len sched
  | intlv len soft => exact .intlv len soft
  | rand len soft => exact .rand hw len soft
  | prbsGen len => exact .prbsGen hw len
  | berCnt len => exact .berCnt len
  | lsfBuild => exact .lsfBuild
  | lsfParse => exact .lsfParse
  | metaPosPack => exact .metaPosPack
  | metaPosUnpack => exact .metaPosUnpack
  | metaEcsPack => exact .metaEcsPack
  | metaEcsUnpack => exact .metaEcsUnpack
  | aesivCtr => exact .aesivCtr
  | textPack len => exact .textPack hw len
  | textReset => exact .textReset
  | textAccept => exact .textAccept hw
  | lichChunk => exact .lichChunk hw
  | lichReset => exact .lichReset
  | lichAccept => exact .lichAccept
  | lichAssemble => exact .lichAssemble
  | lichRx => exact .lichRx hw
  | pktBuild len => exact .pktBuild len
  | pktChunk len => exact .pktChunk len
  | pktReset => exact .pktReset
  | pktAccept => exact .pktAccept
  | pktFlush => exact .pktFlush
  | ipBuild => exact .ipBuild
  | ipParse => exact .ipParse
  | lsfTx => exact .lsfTx hw
  | lsfRx => exact .lsfRx hw
  | strTx => exact .strTx hw
  | strRx => exact .strRx hw
  | pktTx => exact .pktTx hw
  | pktRx => exact .pktRx hw
  | bertTx => exact .bertTx hw
  | bertRx => exact .bertRx hw

/-- Settles O17: the pseudocode has the same outcome in both runs, and completion adds nothing that differs. -/
theorem resultsDependOnlyOnInputs : Obligations.ResultsDependOnlyOnInputs := by
  unfold Obligations.ResultsDependOnlyOnInputs
  intro i s s' t t' h ht ht'
  rw [exec_eq_next_iff] at ht ht'
  subst ht ht'
  obtain ⟨herror, heffect⟩ := commandRun_dependsOnlyOnInputs i s s' h
  exact ⟨herror, heffect.lich, heffect.pkt, heffect.text, heffect.res, fun k _ => heffect.ob k⟩

end Sys2Proof.Machine
end

section
/-! # The rules of the invariant (10_state.md R34 to R36, 60_exceptions.md R350; O16)

One rule for each operation on the state: what it needs so that the invariant holds after it. Then the collectors'
shared operations keep a legal collector legal. -/

namespace Sys2Proof.Machine

/-! ## The memory of a collector -/

/-- Writing on at the end of a stretch of written bytes makes it longer. -/
theorem Memory.held_writeBytes {m : Memory} {a : Nat} (B : Bytes) (h : ∀ i < a, (m.find i).isSome) :
    ∀ i < a + B.length, ((m.writeBytes a B).find i).isSome := by
  intro i hi
  rw [Memory.find_writeBytes]
  by_cases hai : a ≤ i
  · rw [if_pos ⟨hai, hi⟩, List.getElem?_eq_getElem (by omega)]
    rfl
  · rw [if_neg fun hc => hai hc.1]
    exact h i (by omega)

/-! ## The LICH collector (10_state.md R34) -/

/-- A slot after SLOT[k] was written. -/
theorem LichCollector.put_slot (l : LichCollector) (k j : Fin 6) (D : BitVec 40) (m : Word) :
    (l.put k D m).slots[j] = if j = k then { valid := true, data := D, metric := m } else l.slots[j] := by
  simp only [LichCollector.put_slots, Fin.getElem_fin, Vector.getElem_set, Fin.ext_iff, eq_comm]

theorem LichCollector.empty_ok : LichCollector.empty.Ok where
  empty_slot k _ := by simp [LichCollector.empty]
  unkeyed _ := ⟨rfl, fun k => by simp [LichCollector.empty, Slot.empty]⟩

theorem LichCollector.keyed_ok (sid : BitVec 16) : (LichCollector.keyed sid).Ok where
  empty_slot k _ := by simp
  unkeyed h := by simp at h

/-- A valid chunk in a slot of a collector that is keyed to a stream. -/
theorem LichCollector.Ok.put {l : LichCollector} (h : l.Ok) (hkeyed : l.sidValid = true) (k : Fin 6) (D : BitVec 40)
    (m : Word) : (l.put k D m).Ok where
  empty_slot j hj := by
    rw [LichCollector.put_slot] at hj ⊢
    split at hj
    · simp at hj
    · rw [if_neg ‹_›]
      exact h.empty_slot j hj
  unkeyed hv := by simp [hkeyed] at hv

/-- The collector that meets a chunk is keyed to the chunk's stream (48_stream_packet_ip.md R282). -/
theorem LichCollector.Ok.forStream {l : LichCollector} (h : l.Ok) (sid : BitVec 16) :
    (l.forStream sid).Ok ∧ (l.forStream sid).sidValid = true := by
  rcases l.forStream_cases sid with ⟨-, e⟩ | ⟨hv, -, e⟩
  · rw [e]
    exact ⟨LichCollector.keyed_ok sid, rfl⟩
  · rw [e]
    exact ⟨h, hv⟩

theorem LichCollector.Ok.lichAccept {l : LichCollector} (h : l.Ok) (D : BitVec 40) (k : Fin 6) (m : Word)
    (sid : BitVec 16) : (lichAccept l D k m sid).1.Ok := by
  obtain ⟨hok, hkeyed⟩ := h.forStream sid
  rcases lichAccept_cases l D k m sid with ⟨-, e⟩ | ⟨-, -, e⟩ | ⟨-, -, -, e⟩ | ⟨-, -, -, e⟩
  · rw [e]
    exact hok.put hkeyed k D m
  · rw [e]
    exact hok
  · rw [e]
    exact hok.put hkeyed k D m
  · rw [e]
    exact hok

theorem LichCollector.Ok.offerLich {l : LichCollector} (h : l.Ok) (P : Params) (d : LichDecoded) (sid : BitVec 16) :
    (offerLich P l d sid).1.Ok := by
  rcases offerLich_cases P l d sid with ⟨-, e⟩ | ⟨-, e⟩
  · rw [e]
    exact h
  · rw [e]
    exact h.lichAccept ..

/-! ## The packet reassembler (10_state.md R35) -/

theorem PacketReassembler.idle_ok (epoch : Nat) : (PacketReassembler.idle epoch).Ok where
  wf := Memory.wf_nil
  inside _ hc := by simp [PacketReassembler.idle] at hc
  exp_le := Nat.zero_le 32
  active_iff := by simp [PacketReassembler.idle]
  held i hi := by simp [PacketReassembler.idle] at hi

theorem PacketReassembler.Ok.drop {p : PacketReassembler} (h : p.Ok) : p.drop.Ok where
  wf := h.wf
  inside := h.inside
  exp_le := Nat.zero_le 32
  active_iff := by simp
  held i hi := by simp at hi

/-- A chunk stored right after the chunks that are held: a counter has 5 bits, so it lies inside PBUF. -/
theorem PacketReassembler.Ok.store {p : PacketReassembler} (h : p.Ok) {B : Bytes} {c : Nat} (hB : 25 ≤ B.length)
    (hc : c < 32) (hexp : c = p.exp.toNat) : (p.store B c).Ok := by
  have hlen : (slice B 0 25).length = 25 := by rw [slice_length]; omega
  have hnext : (p.store B c).exp.toNat = c + 1 := by
    rw [store_exp, BitVec.toNat_ofNat]
    omega
  refine ⟨Memory.wf_writeBytes h.wf _ _, Memory.within_writeBytes h.inside (by omega), by omega, ?_, fun i hi => ?_⟩
  · rw [store_active, BitVec.toNat_ne, hnext]
    simp
  · refine Memory.held_writeBytes _ (fun j hj => h.held j (by omega)) i ?_
    omega

/-- The last chunk drops the reassembler, and a packet it completes has at most 33 chunks of 25 bytes
(48_stream_packet_ip.md R290, R291). -/
theorem acceptLastChunk_effect (p : PacketReassembler) (B : Bytes) (c : Nat) :
    (acceptLastChunk p B c).1 = p.drop
    ∧ ∀ Q, (acceptLastChunk p B c).2 = .ok (.complete Q) → Q.length ≤ 25 * p.exp.toNat + 25 := by
  rcases acceptLastChunk_cases p B c with ⟨-, e⟩ | ⟨-, -, -, e⟩ | ⟨-, hc, -, -, e⟩ | ⟨-, -, -, -, e⟩
  · exact e ▸ ⟨rfl, nofun⟩
  · exact e ▸ ⟨rfl, nofun⟩
  · rw [e]
    refine ⟨rfl, fun Q hQ => ?_⟩
    cases hQ
    rw [List.length_append, PacketReassembler.bytes, List.length_map, List.length_range, slice_length]
    omega
  · exact e ▸ ⟨rfl, nofun⟩

/-- A chunk that is not the last keeps the reassembler legal and completes nothing (48_stream_packet_ip.md R291). -/
theorem PacketReassembler.Ok.acceptMiddleChunk {p : PacketReassembler} (h : p.Ok) {B : Bytes} {c : Nat}
    (hB : 25 ≤ B.length) (hc : c < 32) :
    (acceptMiddleChunk p B c).1.Ok ∧ ∀ Q, (acceptMiddleChunk p B c).2 ≠ .ok (.complete Q) := by
  rcases acceptMiddleChunk_cases p B c with ⟨-, -, -, e⟩ | ⟨-, -, -, e⟩ | ⟨-, hexp, e⟩ | ⟨-, -, -, e⟩ | ⟨-, -, -, e⟩ |
    ⟨-, -, -, e⟩
  · exact e ▸ ⟨h, nofun⟩
  · exact e ▸ ⟨h.drop, nofun⟩
  · exact e ▸ ⟨h.store hB hc hexp, nofun⟩
  · exact e ▸ ⟨h.drop.store hB (by decide) rfl, nofun⟩
  · exact e ▸ ⟨h.drop, nofun⟩
  · exact e ▸ ⟨h.drop, nofun⟩

theorem PacketReassembler.Ok.packetAccept {p : PacketReassembler} (h : p.Ok) {B : Bytes} (hB : 25 ≤ B.length) :
    (packetAccept p B).1.Ok ∧ ∀ Q, (packetAccept p B).2 = .ok (.complete Q) → Q.length ≤ 825 := by
  rw [Machine.packetAccept]
  by_cases heof : chunkEof B = true
  · rw [if_pos heof]
    obtain ⟨hdrop, hlen⟩ := acceptLastChunk_effect p B (chunkCounter B).toNat
    exact ⟨hdrop ▸ h.drop, fun Q hQ => (hlen Q hQ).trans (by have := h.exp_le; omega)⟩
  · rw [if_neg heof]
    obtain ⟨hok, hnone⟩ := h.acceptMiddleChunk hB (chunkCounter B).isLt
    exact ⟨hok, fun Q hQ => absurd hQ (hnone Q)⟩

/-! ## The text collector (10_state.md R36) -/

theorem TextCollector.idle_ok (epoch : Nat) : (TextCollector.idle epoch).Ok where
  wf := Memory.wf_nil
  inside _ hc := by simp [TextCollector.idle] at hc
  idle _ := ⟨rfl, rfl⟩
  busy h := by simp [TextCollector.idle] at h
  held i hi := by simp [TextCollector.idle] at hi

theorem TextCollector.Ok.cleared {c : TextCollector} (h : c.Ok) : c.cleared.Ok where
  wf := h.wf
  inside := h.inside
  idle _ := ⟨rfl, rfl⟩
  busy h := by simp at h
  held i hi := by simp at hi

/-- A block stored right after the blocks that are held, in a message that has such a block: the message is complete
and the collector cleared, or it waits for the next block (47_lsf_meta.md R258). -/
theorem TextCollector.Ok.store_settle {c : TextCollector} {B : Bytes} {p : Nat} (hwf : c.tbuf.wf)
    (hinside : c.tbuf.within 0 195) (hheld : ∀ i < 13 * p, (c.tbuf.find i).isSome) (hactive : c.active = true)
    (hp : p < c.cnt.toNat) (hB : 14 ≤ B.length) (a : TextAction) : ((c.store B p).settle a).1.Ok := by
  have hcnt := c.cnt.isLt
  have hlen : (slice B 1 14).length = 13 := by rw [slice_length]; omega
  have hnext : (c.store B p).next.toNat = p + 1 := by
    rw [store_next, BitVec.toNat_ofNat]
    omega
  have hwf' : (c.store B p).tbuf.wf := Memory.wf_writeBytes hwf _ _
  have hinside' : (c.store B p).tbuf.within 0 195 := Memory.within_writeBytes hinside (by omega)
  rcases (c.store B p).settle_cases a with ⟨-, e⟩ | ⟨hne, e⟩
  · rw [e]
    exact ⟨hwf', hinside', fun _ => ⟨rfl, rfl⟩, fun h => by simp at h, fun i hi => by simp at hi⟩
  · rw [e]
    rw [BitVec.toNat_ne, hnext, store_cnt] at hne
    refine ⟨hwf', hinside', fun h => by simp [hactive] at h, fun _ => ?_,
      fun i (hi : i < 13 * (c.store B p).next.toNat) => ?_⟩
    · rw [hnext, store_cnt]
      omega
    · refine Memory.held_writeBytes _ hheld i ?_
      omega

theorem TextCollector.Ok.textAccept {c : TextCollector} (h : c.Ok) (P : Params) {B : Bytes} (hB : 14 ≤ B.length) :
    (textAccept P c B).1.Ok := by
  rcases textAccept_cases P c B with
    ⟨-, e⟩ | ⟨hpos, ⟨-, e⟩ | ⟨-, ⟨hactive, hcnt, hnext⟩, e⟩ | ⟨-, -, -, e⟩ | ⟨-, -, -, e⟩⟩
  · exact e ▸ h.cleared
  · exact e ▸ h
  · rw [e]
    refine store_settle h.wf h.inside (fun i hi => h.held i (by omega)) hactive ?_ hB _
    rw [← hcnt]
    omega
  · rw [e]
    exact store_settle (c := c.begin _) h.wf h.inside (fun i hi => by omega) rfl (by rw [begin_cnt]; omega) hB _
  · exact e ▸ h.cleared

theorem trimEnd_length_le (b : Byte) (d : Bytes) : (trimEnd b d).length ≤ d.length := by
  rw [trimEnd, List.length_reverse, ← List.length_reverse (as := d)]
  exact (List.dropWhile_sublist _).length_le

/-- A completed text lies inside TBUF (47_lsf_meta.md R257, R258). -/
theorem TextCollector.settle_complete_length {c : TextCollector} {a : TextAction} {T : Bytes}
    (ha : ∀ T', a ≠ .complete T') (hT : (c.settle a).2 = .ok (.complete T)) : T.length ≤ 195 := by
  have hcnt := c.cnt.isLt
  rcases c.settle_cases a with ⟨-, e⟩ | ⟨-, e⟩
  · rw [e] at hT
    cases hT
    refine (trimEnd_length_le _ _).trans ?_
    rw [TextCollector.bytes, List.length_map, List.length_range]
    omega
  · rw [e] at hT
    cases hT
    exact absurd rfl (ha T)

theorem textAccept_complete_length {P : Params} {c : TextCollector} {B T : Bytes}
    (hT : (textAccept P c B).2 = .ok (.complete T)) : T.length ≤ 195 := by
  rcases textAccept_cases P c B with ⟨-, e⟩ | ⟨-, ⟨-, e⟩ | ⟨-, -, e⟩ | ⟨-, -, -, e⟩ | ⟨-, -, -, e⟩⟩ <;> rw [e] at hT
  · cases hT
  · cases hT
  · exact TextCollector.settle_complete_length (by simp) hT
  · exact TextCollector.settle_complete_length (by split <;> simp) hT
  · cases hT

/-! ## The operations on the state -/

namespace State.Inv

variable {s : State} (h : s.Inv)
include h

theorem setRes (n : Fin 8) (v : Word) : (s.setRes n v).Inv :=
  ⟨h.mem_wf, h.mem_inside, h.lich, h.pkt, h.text, h.in_flight⟩

theorem clearRes : s.clearRes.Inv := ⟨h.mem_wf, h.mem_inside, h.lich, h.pkt, h.text, h.in_flight⟩

/-- A write inside OBUF. -/
theorem obWrite {i : Nat} {B : Bytes} (hB : i + B.length ≤ 1024) : (s.obWrite i B).Inv :=
  ⟨Memory.wf_writeBytes h.mem_wf _ _, Memory.within_writeBytes h.mem_inside (by unfold obufBase; omega), h.lich, h.pkt,
    h.text, h.in_flight⟩

/-- A host write inside IBUF. -/
theorem writeIb {i : Nat} (v : Byte) (hi : i < 1024) : (s.writeIb i v).Inv :=
  ⟨Memory.wf_write h.mem_wf _ _, Memory.within_write h.mem_inside v (by unfold ibufBase; omega), h.lich, h.pkt, h.text,
    h.in_flight⟩

theorem setLich {l : LichCollector} (hl : l.Ok) : (s.setLich l).Inv :=
  ⟨h.mem_wf, h.mem_inside, hl, h.pkt, h.text, h.in_flight⟩

theorem setPkt {p : PacketReassembler} (hp : p.Ok) : (s.setPkt p).Inv :=
  ⟨h.mem_wf, h.mem_inside, h.lich, hp, h.text, h.in_flight⟩

theorem setText {c : TextCollector} (hc : c.Ok) : (s.setText c).Inv :=
  ⟨h.mem_wf, h.mem_inside, h.lich, h.pkt, hc, h.in_flight⟩

/-- A completed command is no longer in flight, so its error may stand (60_exceptions.md R350 step 4). -/
theorem complete (e : Option Err) : (s.complete e).Inv :=
  ⟨h.mem_wf, h.mem_inside, h.lich, h.pkt, h.text, fun hb => by simp at hb⟩

/-- Acceptance clears DONE, ERR and SUB (60_exceptions.md R350 step 1). -/
theorem accept (w : Word) : (s.accept w).Inv :=
  ⟨h.mem_wf, h.mem_inside, h.lich, h.pkt, h.text, fun _ => ⟨rfl, rfl⟩⟩

/-- A STATUS write sets nothing. -/
theorem writeStatus (v : Word) : (s.writeStatus v).Inv := by
  refine ⟨h.mem_wf, h.mem_inside, h.lich, h.pkt, h.text, fun hb => ?_⟩
  obtain ⟨hdone, herror⟩ := h.in_flight hb
  exact ⟨by rw [State.writeStatus_done, hdone, Bool.false_and], herror⟩

theorem writeCtrl (v : Word) : (s.writeCtrl v).Inv := ⟨h.mem_wf, h.mem_inside, h.lich, h.pkt, h.text, h.in_flight⟩

theorem setArg (n : Fin 8) (v : Word) : (s.setArg n v).Inv :=
  ⟨h.mem_wf, h.mem_inside, h.lich, h.pkt, h.text, h.in_flight⟩

theorem setViol : s.setViol.Inv := ⟨h.mem_wf, h.mem_inside, h.lich, h.pkt, h.text, h.in_flight⟩

theorem answer (r : Reply) : (s.answer r).Inv := ⟨h.mem_wf, h.mem_inside, h.lich, h.pkt, h.text, h.in_flight⟩

theorem answerFree (f : Word → Reply) : (s.answerFree f).Inv :=
  ⟨h.mem_wf, h.mem_inside, h.lich, h.pkt, h.text, h.in_flight⟩

end State.Inv

/-- The reset event empties everything (70_reset_and_hazards.md R380, R381). -/
theorem State.inv_afterReset (s : State) : s.afterReset.Inv :=
  ⟨Memory.wf_nil, fun c hc => by simp at hc, LichCollector.empty_ok, PacketReassembler.idle_ok _,
    TextCollector.idle_ok _, fun hb => by simp at hb⟩

end Sys2Proof.Machine
end

section
/-! # What the pseudocode of a command may do (60_exceptions.md R354, R355, 10_state.md R34 to R39; O13, O16, O19)

Every write of every command is one of a few operations. Each of them keeps the frame of the command, so the frame of
the whole pseudocode is read off its text; the only facts that need an argument are that what is written to OBUF fits
into it. -/

namespace Sys2Proof.Machine

/-! ## What is written to OBUF fits into it -/

/-- A packed bit-string operand has the bits that were asked for (20_memory.md R65). -/
@[simp] theorem State.ibits_length (s : State) (i n : Nat) : (s.ibits i n).length = n := by
  rw [State.ibits, List.length_take, bits_length, State.ibytes_length]
  omega

theorem puncture_length_le {α : Type} (P : Bits) (c : List α) : (puncture P c).length ≤ c.length :=
  puncture_length P c ▸ kept_le P _

theorem flatten_length_le {L : List Bytes} {n : Nat} (h : ∀ B ∈ L, B.length ≤ n) : L.flatten.length ≤ L.length * n := by
  rw [List.length_flatten, ← List.length_map (f := List.length), ← smul_eq_mul]
  refine List.sum_le_card_nsmul _ _ fun k hk => ?_
  obtain ⟨B, hB, rfl⟩ := List.mem_map.1 hk
  exact h B hB

/-- A frame is the sync word and 368 bits (49_pipeline_bert.md R321). -/
@[simp] theorem txFrame_length (sync : BitVec 16) (c : Bits) : (txFrame hw sync c).length = 48 := by simp [txFrame]

/-- The six chunks are an LSF (48_stream_packet_ip.md R283). -/
@[simp] theorem LichCollector.assembled_length (l : LichCollector) : l.assembled.length = 30 := by
  simp [LichCollector.assembled, List.length_flatMap]

theorem digits40_length_le (fuel m : Nat) : (digits40 fuel m).length ≤ fuel := by
  induction fuel generalizing m with
  | zero => simp [digits40]
  | succ fuel ih =>
    rw [digits40]
    split
    · simp
    · simpa using ih (m / 40)

theorem dec40_length_le (P : Params) (m : Nat) : (dec40 P m).length ≤ 9 := by
  refine (trimEnd_length_le _ _).trans ?_
  have := digits40_length_le 9 m
  cases P.b40Order with
  | lsbFirst => exact this
  | msbFirst => rwa [List.length_reverse]

/-- The text of an address has at most 10 characters (41_address.md R131, R135). -/
theorem b40Text_length_le {P : Params} {n : Nat} {t : Bytes} {cls : AddressClass} (h : b40Text P n = .ok (t, cls)) :
    t.length ≤ 10 := by
  have hrest := dec40_length_le P (n - regularEnd)
  have hall := dec40_length_le P n
  unfold b40Text at h
  split_ifs at h <;> cases h
  · decide
  · rw [List.length_cons]
    omega
  · simp
  · omega

/-- A text block has 14 bytes (47_lsf_meta.md R256). -/
theorem textBlock_length (P : Params) (T : Bytes) (n p : Nat) : (textBlock P T n p).length = 14 := by
  simp only [textBlock, List.length_cons, List.length_append, List.length_replicate, slice_length]
  omega

/-- The blocks of a text (47_lsf_meta.md R257). -/
theorem textFrag_flatten_length_le (P : Params) (T : Bytes) :
    (textFrag P T).flatten.length ≤ textBlockCount T.length * 14 := by
  have h : ∀ B ∈ textFrag P T, B.length ≤ 14 := by
    intro B hB
    obtain ⟨p, -, rfl⟩ := List.mem_map.1 hB
    exact (textBlock_length ..).le
  simpa [textFrag] using flatten_length_le h

/-- A chunk has 26 bytes (48_stream_packet_ip.md R290). -/
theorem packetChunk_length_le (Q : Bytes) (n k : Nat) : (packetChunk Q n k).length ≤ 26 := by
  unfold packetChunk
  split
  · simp only [List.length_append, List.length_cons, List.length_nil, slice_length]
    omega
  · simp only [List.length_append, List.length_cons, List.length_nil, List.length_replicate, slice_length]
    omega

/-- The chunks of a packet (48_stream_packet_ip.md R290). -/
theorem packetChunks_flatten_length_le (Q : Bytes) :
    (packetChunks Q).flatten.length ≤ chunkCount Q.length * 26 := by
  have h : ∀ B ∈ packetChunks Q, B.length ≤ 26 := by
    intro B hB
    obtain ⟨k, -, rfl⟩ := List.mem_map.1 hB
    exact packetChunk_length_le ..
  simpa [packetChunks] using flatten_length_le h

/-! ## The frame of a command -/

/-- The commands of the LICH collector (10_state.md R34). -/
def lichCommands : List Instr := [.clear, .lichReset, .lichAccept, .lichRx, .strRx]

/-- The commands of the packet reassembler (10_state.md R35). -/
def pktCommands : List Instr := [.clear, .pktReset, .pktAccept, .pktFlush]

/-- The commands of the text collector (10_state.md R36). -/
def textCommands : List Instr := [.clear, .textReset, .textAccept]

/-- What the command `i` may have done between the states s and u: it has written RES, OBUF and its own collectors, and
nothing else; and the invariant has been kept. -/
structure CommandFrame (i : Instr) (s u : State) : Prop where
  host : HostSideKept s u
  cmdcnt : u.cmdcnt = s.cmdcnt
  ib : ∀ j < 1024, u.ib j = s.ib j
  lich : i ∉ lichCommands → u.lich = s.lich
  pkt : i ∉ pktCommands → u.pkt = s.pkt
  text : i ∉ textCommands → u.text = s.text
  inv : s.Inv → u.Inv

/-- The pseudocode of the command stays inside its frame, whatever the state it starts in. -/
def Framed (i : Instr) : Prop := ∀ s : State, CommandFrame i s (commandRun i s).state

namespace CommandFrame

variable {i : Instr} {s u : State}

/-- Nothing has been done yet; so it is also where a command raises before it writes anything. -/
theorem start : CommandFrame i s s :=
  ⟨HostSideKept.refl s, rfl, fun _ _ => rfl, fun _ => rfl, fun _ => rfl, fun _ => rfl, id⟩

theorem branch {c : Prop} [Decidable c] {r q : Run} (hr : c → CommandFrame i s r.state)
    (hq : ¬ c → CommandFrame i s q.state) : CommandFrame i s (if c then r else q).state := by
  by_cases hc : c
  · rw [if_pos hc]
    exact hr hc
  · rw [if_neg hc]
    exact hq hc

theorem withSched {sched : BitVec 4} {r : Run} (hr : CommandFrame i s r.state) :
    CommandFrame i s (withSched sched s r).state :=
  .branch (fun _ => hr) fun _ => .start

variable (h : CommandFrame i s u)
include h

theorem setRes {n : Fin 8} {v : Word} : CommandFrame i s (u.setRes n v) :=
  ⟨h.host, h.cmdcnt, h.ib, h.lich, h.pkt, h.text, fun hs => (h.inv hs).setRes n v⟩

theorem setResNat {n : Fin 8} {v : Nat} : CommandFrame i s (u.setResNat n v) := h.setRes

theorem setResAddr {lo hi : Fin 8} {n : Nat} : CommandFrame i s (u.setResAddr lo hi n) := h.setResNat.setResNat

theorem setResBitmap {n : Fin 8} : CommandFrame i s (u.setResBitmap n) := h.setRes

theorem clearRes : CommandFrame i s u.clearRes :=
  ⟨h.host, h.cmdcnt, h.ib, h.lich, h.pkt, h.text, fun hs => (h.inv hs).clearRes⟩

/-- A write to OBUF whose length only the invariant bounds. -/
theorem obWrite_of_inv {k : Nat} {B : Bytes} (hB : s.Inv → k + B.length ≤ 1024) : CommandFrame i s (u.obWrite k B) :=
  ⟨h.host, h.cmdcnt, fun j hj => (State.obWrite_ib u k B j hj).trans (h.ib j hj), h.lich, h.pkt, h.text,
    fun hs => (h.inv hs).obWrite (hB hs)⟩

theorem obWrite {k : Nat} {B : Bytes} (hB : k + B.length ≤ 1024) : CommandFrame i s (u.obWrite k B) :=
  h.obWrite_of_inv fun _ => hB

theorem setLich {l : LichCollector} (hi : i ∈ lichCommands) (hl : s.lich.Ok → l.Ok) : CommandFrame i s (u.setLich l) :=
  ⟨h.host, h.cmdcnt, h.ib, fun hn => absurd hi hn, h.pkt, h.text, fun hs => (h.inv hs).setLich (hl hs.lich)⟩

theorem setPkt {p : PacketReassembler} (hi : i ∈ pktCommands) (hp : s.pkt.Ok → p.Ok) : CommandFrame i s (u.setPkt p) :=
  ⟨h.host, h.cmdcnt, h.ib, h.lich, fun hn => absurd hi hn, h.text, fun hs => (h.inv hs).setPkt (hp hs.pkt)⟩

theorem setText {c : TextCollector} (hi : i ∈ textCommands) (hc : s.text.Ok → c.Ok) : CommandFrame i s (u.setText c) :=
  ⟨h.host, h.cmdcnt, h.ib, h.lich, h.pkt, fun hn => absurd hi hn, fun hs => (h.inv hs).setText (hc hs.text)⟩

theorem writePacketAction {a : PacketAction} (ha : ∀ Q, a = .complete Q → s.Inv → Q.length ≤ 1024) :
    CommandFrame i s (u.writePacketAction a) := by
  cases a with
  | stored => exact h.setResNat
  | duplicate => exact h.setResNat
  | complete Q => exact (h.obWrite_of_inv fun hs => by simpa using ha Q rfl hs).setResNat.setRes.setResNat
  | restarted => exact h.setResNat

theorem writeTextAction {a : TextAction} (ha : ∀ T, a = .complete T → T.length ≤ 1024) :
    CommandFrame i s (u.writeTextAction a) := by
  cases a with
  | stored => exact h.setResNat
  | duplicate => exact h.setResNat
  | complete T => exact (h.obWrite (by simpa using ha T rfl)).setResNat.setResNat
  | restarted => exact h.setResNat

theorem writeStream {d : LichDecoded} {payload : Bytes} {pm : Nat} (hp : 6 + payload.length ≤ 1024) :
    CommandFrame i s (u.writeStream d payload pm) :=
  ((h.obWrite (by simp)).obWrite hp).setResNat.setResNat.setResNat.setResNat.setResNat.setRes

end CommandFrame

namespace Framed

open CommandFrame (start branch)

/-! ### Control (40_control.md) -/

theorem nop : Framed .nop := fun _ => start

theorem clear : Framed .clear := fun _ =>
  (((start.setLich (by decide) fun _ => LichCollector.empty_ok).setPkt (by decide) fun _ =>
    PacketReassembler.idle_ok _).setText (by decide) fun _ => TextCollector.idle_ok _).clearRes

/-! ### CRC (42_crc.md) -/

theorem crc16 (len : BitVec 16) : Framed (.crc16 len) := fun _ =>
  branch (fun _ => start) fun _ => start.setRes.obWrite (by simp)

theorem crc16Chk (len : BitVec 16) : Framed (.crc16Chk len) := fun _ =>
  branch (fun _ => start) fun _ => start.setRes.setResNat

/-! ### Addresses (41_address.md) -/

theorem b40Enc (len : BitVec 16) : Framed (.b40Enc len) := by
  refine fun s => branch (fun _ => start) fun _ => ?_
  cases b40Encode hw (s.ibytes 0 len.toNat) with
  | error e => exact start
  | ok r => exact start.setResAddr.setResNat.obWrite (by simp)

/-- The part B40_DEC and B40_DECB share (41_address.md R135). -/
theorem of_b40DecodeCommon (i : Instr) (n : Nat) (s : State) : CommandFrame i s (b40DecodeCommon hw n s).state := by
  unfold b40DecodeCommon
  cases ht : b40Text hw n with
  | error e => exact start
  | ok r =>
    have := b40Text_length_le ht
    exact (start.obWrite (by omega)).setResNat.setResNat.setResAddr

theorem b40Dec : Framed .b40Dec := fun _ => branch (fun _ => start) fun _ => of_b40DecodeCommon ..

theorem b40Decb : Framed .b40Decb := fun _ => of_b40DecodeCommon ..

/-! ### TYPE fields (43_type.md) -/

theorem typeBv2 : Framed .typeBv2 := fun _ => branch (fun _ => start) fun _ => start.setRes

theorem typePv2 : Framed .typePv2 := fun _ =>
  branch (fun _ => start) fun _ => start.setRes.setRes.setRes.setRes.setRes.setRes.setResNat

theorem typeBv3 : Framed .typeBv3 := fun _ => branch (fun _ => start) fun _ => start.setRes

theorem typePv3 : Framed .typePv3 := fun _ =>
  branch (fun _ => start) fun _ => start.setRes.setRes.setRes.setRes.setRes.setResNat

theorem typeDet : Framed .typeDet := fun _ => branch (fun _ => start) fun _ => start.setResNat.setResNat

/-! ### Golay and LICH units (44_golay.md) -/

theorem golayEnc : Framed .golayEnc := fun _ => branch (fun _ => start) fun _ => start.setRes

theorem golayDec : Framed .golayDec := by
  intro s
  show CommandFrame _ s (golayDecRun hw s).state
  unfold golayDecRun
  refine branch (fun _ => start) fun _ => ?_
  cases golayHard hw (s.argField 0 24) with
  | some r => exact start.setRes.setResNat.setRes
  | none => exact start

theorem golaySdec : Framed .golaySdec := fun _ => start.setRes.setResNat.setRes.setResNat

theorem lichEnc : Framed .lichEnc := fun _ => start.obWrite (by simp)

theorem lichSdec : Framed .lichSdec := fun _ =>
  (start.obWrite (by simp)).setRes.setResNat.setResNat.setResNat

/-! ### Convolutional code (45_conv_viterbi.md) -/

theorem convEnc (len : BitVec 16) (sched : BitVec 4) : Framed (.convEnc len sched) := by
  refine fun s => .withSched (branch (fun _ => start) fun hlen => ?_)
  have hmax : len.toNat ≤ 508 := Nat.not_lt.1 hlen
  have hc := puncture_length_le (schedMask hw sched) (conv (s.ibits 0 len.toNat))
  rw [conv_length, State.ibits_length] at hc
  exact (start.obWrite (by rw [pack_length]; omega)).setResNat

theorem punct (len : BitVec 16) (sched : BitVec 4) : Framed (.punct len sched) := by
  refine fun s => .withSched (branch (fun _ => start) fun hlen => ?_)
  have hmax : len.toNat ≤ 8 * 1024 := Nat.not_lt.1 hlen
  have hc := puncture_length_le (schedMask hw sched) (s.ibits 0 len.toNat)
  rw [State.ibits_length] at hc
  exact (start.obWrite (by rw [pack_length]; omega)).setResNat

theorem viterbi (len : BitVec 16) (sched : BitVec 4) : Framed (.viterbi len sched) := by
  refine fun s => .withSched (branch (fun _ => start) fun hlen => ?_)
  have hmax : len.toNat ≤ 508 := Nat.not_lt.1 hlen
  exact (start.obWrite (by rw [pack_length, viterbi_length]; omega)).setResNat.setResNat.setResNat

/-! ### Interleaver, randomizer, PRBS (46_interleave_randomize_prbs.md) -/

theorem intlv (len : BitVec 16) (soft : Bool) : Framed (.intlv len soft) := fun _ =>
  branch (fun _ => start) fun _ => branch (fun _ => start.obWrite (by simp)) fun _ => start.obWrite (by simp)

theorem rand (len : BitVec 16) (soft : Bool) : Framed (.rand len soft) := fun _ =>
  branch (fun _ => start) fun _ => branch (fun _ => start.obWrite (by simp)) fun _ => start.obWrite (by simp)

theorem prbsGen (len : BitVec 16) : Framed (.prbsGen len) := by
  refine fun s => branch (fun _ => start) fun hlen => branch (fun _ => start) fun _ => ?_
  have hmax : len.toNat ≤ 8 * 1024 := Nat.not_lt.1 hlen
  exact (start.obWrite (by rw [pack_length, prbs_length]; omega)).setRes

theorem berCnt (len : BitVec 16) : Framed (.berCnt len) := fun _ =>
  branch (fun _ => start) fun _ => start.setResNat.setResNat

/-! ### LSF and META (47_lsf_meta.md) -/

theorem lsfBuild : Framed .lsfBuild := fun _ => ((start.obWrite (by simp)).obWrite (by simp)).setRes

theorem lsfParse : Framed .lsfParse := fun _ =>
  start.setRes.setResNat.setResNat.setRes.setResAddr.setResAddr

theorem metaPosPack : Framed .metaPosPack := fun _ =>
  branch (fun _ => start.obWrite (by simp [State.positionMeta])) fun _ => start

theorem metaPosUnpack : Framed .metaPosUnpack := fun _ =>
  start.setResNat.setResNat.setRes.setRes.setRes.setResNat.setResNat.setResNat

theorem metaEcsPack : Framed .metaEcsPack := fun _ => (start.obWrite (by simp)).obWrite (by simp)

theorem metaEcsUnpack : Framed .metaEcsUnpack := fun _ =>
  (start.obWrite (by simp)).setResNat.setResAddr.setResAddr

theorem aesivCtr : Framed .aesivCtr := fun _ =>
  branch (fun _ => start) fun _ => (start.obWrite (by simp)).obWrite (by simp)

theorem textPack (len : BitVec 16) : Framed (.textPack len) := by
  refine fun s => branch (fun _ => start) fun hlen => ?_
  have hblocks := textFrag_flatten_length_le hw (s.ibytes 0 len.toNat)
  rw [State.ibytes_length, textBlockCount] at hblocks
  exact (start.obWrite (by omega)).setResNat.setResNat

theorem textReset : Framed .textReset := fun _ => start.setText (by decide) fun _ => TextCollector.idle_ok _

theorem textAccept : Framed .textAccept := by
  intro s
  have hok : s.text.Ok → (Machine.textAccept hw s.text (s.ibytes 0 14)).1.Ok := fun hc => hc.textAccept hw (by simp)
  have hlen := fun T => textAccept_complete_length (P := hw) (c := s.text) (B := s.ibytes 0 14) (T := T)
  show CommandFrame _ s (textAcceptRun hw s).state
  unfold textAcceptRun
  generalize Machine.textAccept hw s.text (s.ibytes 0 14) = r at hok hlen ⊢
  obtain ⟨c, e | a⟩ := r
  · exact start.setText (by decide) hok
  · have ha : ∀ T, a = .complete T → T.length ≤ 1024 := fun T hT => (hlen T (hT ▸ rfl)).trans (by decide)
    exact ((start.setText (by decide) hok).writeTextAction ha).setRes.setRes

/-! ### LICH, packets and IP frames (48_stream_packet_ip.md) -/

theorem lichChunk : Framed .lichChunk := fun _ =>
  branch (fun _ => start) fun _ => (start.obWrite (by simp)).obWrite (by simp)

theorem lichReset : Framed .lichReset := fun _ =>
  branch (fun _ => start) fun _ => start.setLich (by decide) fun _ => LichCollector.keyed_ok _

theorem lichAccept : Framed .lichAccept := fun _ =>
  branch (fun _ => start) fun _ =>
    (start.setLich (by decide) fun hl => hl.lichAccept ..).setResBitmap.setResNat

theorem lichAssemble : Framed .lichAssemble := fun _ =>
  branch (fun _ => start.setResBitmap) fun _ => (start.setResBitmap.obWrite (by simp)).setRes.setResNat.setRes

theorem lichRx : Framed .lichRx := fun _ =>
  branch (fun _ => start) fun _ =>
    ((start.obWrite (by simp)).setResNat.setRes.setLich (by decide) fun hl => hl.offerLich ..).setResBitmap.setResNat

theorem pktBuild (len : BitVec 16) : Framed (.pktBuild len) := by
  refine fun s => branch (fun _ => start) fun hlen => branch (fun _ => start) fun _ => ?_
  exact (start.obWrite (by simp; omega)).setResNat.setResNat.setRes

theorem pktChunk (len : BitVec 16) : Framed (.pktChunk len) := by
  refine fun s => branch (fun _ => start) fun _ => branch (fun _ => start) fun hlen => ?_
  have hchunks := packetChunks_flatten_length_le (s.ibytes 0 len.toNat)
  rw [State.ibytes_length, chunkCount] at hchunks
  exact (start.obWrite (by omega)).setResNat

theorem pktReset : Framed .pktReset := fun _ => start.setPkt (by decide) fun _ => PacketReassembler.idle_ok _

theorem pktAccept : Framed .pktAccept := by
  intro s
  have haccept := fun hp : s.pkt.Ok => hp.packetAccept (B := s.ibytes 0 26) (by simp)
  show CommandFrame _ s (pktAcceptRun s).state
  unfold pktAcceptRun
  generalize packetAccept s.pkt (s.ibytes 0 26) = r at haccept ⊢
  have hok : s.pkt.Ok → r.1.Ok := fun hp => (haccept hp).1
  obtain ⟨p, e | a⟩ := r
  · exact start.setPkt (by decide) hok
  · have ha : ∀ Q, a = .complete Q → s.Inv → Q.length ≤ 1024 := fun Q hQ hs =>
      ((haccept hs.pkt).2 Q (hQ ▸ rfl)).trans (by decide)
    exact ((start.setPkt (by decide) hok).writePacketAction ha).setRes

theorem pktFlush : Framed .pktFlush := fun _ =>
  branch (fun _ => start.setPkt (by decide) fun hp => hp.drop) fun _ => start

theorem ipBuild : Framed .ipBuild := fun _ =>
  branch (fun _ => start) fun _ => ((start.obWrite (by simp [ipHead, ipMagic])).obWrite (by simp)).setRes

theorem ipParse : Framed .ipParse := fun _ =>
  branch (fun _ => start) fun _ =>
    (((start.obWrite (by simp)).obWrite (by simp)).obWrite (by simp)).setResNat.setRes.setResNat.setRes.setResNat.setRes

/-! ### Pipelines and BERT (49_pipeline_bert.md) -/

theorem lsfTx : Framed .lsfTx := fun _ => (start.obWrite (by simp)).setRes

theorem lsfRx : Framed .lsfRx := fun _ =>
  (start.obWrite (by simp [viterbi_length])).setRes.setResNat.setResNat.setResNat.setRes

theorem strTx : Framed .strTx := fun _ => start.obWrite (by simp)

theorem strRx : Framed .strRx := by
  refine fun s => branch (fun _ => start) fun _ => branch (fun _ => ?_) fun _ => ?_
  · exact ((start.writeStream (by simp [viterbi_length])).setLich (by decide) fun hl => hl.offerLich ..).setResNat
  · exact start.writeStream (by simp [viterbi_length])

theorem pktTx : Framed .pktTx := fun _ => start.obWrite (by simp)

theorem pktRx : Framed .pktRx := fun _ =>
  (start.obWrite (by simp [viterbi_length])).setResNat.setResNat.setRes

theorem bertTx : Framed .bertTx := fun _ =>
  branch (fun _ => start) fun _ => branch (fun _ => start) fun _ => (start.obWrite (by simp)).setRes

theorem bertRx : Framed .bertRx := fun _ =>
  branch (fun _ => start) fun _ => branch (fun _ => start) fun _ =>
    (start.obWrite (by simp [viterbi_length])).setResNat.setResNat.setResNat

end Framed

/-! ## Every command -/

/-- The pseudocode of every command stays inside its frame. -/
theorem commandRun_framed (i : Instr) : Framed i := by
  cases i with
  | nop => exact .nop
  | clear => exact .clear
  | crc16 len => exact .crc16 len
  | crc16Chk len => exact .crc16Chk len
  | b40Enc len => exact .b40Enc len
  | b40Dec => exact .b40Dec
  | b40Decb => exact .b40Decb
  | typeBv2 => exact .typeBv2
  | typePv2 => exact .typePv2
  | typeBv3 => exact .typeBv3
  | typePv3 => exact .typePv3
  | typeDet => exact .typeDet
  | golayEnc => exact .golayEnc
  | golayDec => exact .golayDec
  | golaySdec => exact .golaySdec
  | lichEnc => exact .lichEnc
  | lichSdec => exact .lichSdec
  | convEnc len sched => exact .convEnc len sched
  | punct len sched => exact .punct len sched
  | viterbi len sched => exact .viterbi len sched
  | intlv len soft => exact .intlv len soft
  | rand len soft => exact .rand len soft
  | prbsGen len => exact .prbsGen len
  | berCnt len => exact .berCnt len
  | lsfBuild => exact .lsfBuild
  | lsfParse => exact .lsfParse
  | metaPosPack => exact .metaPosPack
  | metaPosUnpack => exact .metaPosUnpack
  | metaEcsPack => exact .metaEcsPack
  | metaEcsUnpack => exact .metaEcsUnpack
  | aesivCtr => exact .aesivCtr
  | textPack len => exact .textPack len
  | textReset => exact .textReset
  | textAccept => exact .textAccept
  | lichChunk => exact .lichChunk
  | lichReset => exact .lichReset
  | lichAccept => exact .lichAccept
  | lichAssemble => exact .lichAssemble
  | lichRx => exact .lichRx
  | pktBuild len => exact .pktBuild len
  | pktChunk len => exact .pktChunk len
  | pktReset => exact .pktReset
  | pktAccept => exact .pktAccept
  | pktFlush => exact .pktFlush
  | ipBuild => exact .ipBuild
  | ipParse => exact .ipParse
  | lsfTx => exact .lsfTx
  | lsfRx => exact .lsfRx
  | strTx => exact .strTx
  | strRx => exact .strRx
  | pktTx => exact .pktTx
  | pktRx => exact .pktRx
  | bertTx => exact .bertTx
  | bertRx => exact .bertRx

/-- What a command answers: a completion, and the frame of its pseudocode (60_exceptions.md R350). -/
theorem exec_frame {i : Instr} {s t : State} (h : exec i s = .next t) :
    ∃ u e, t = u.complete e ∧ CommandFrame i s u :=
  ⟨_, _, (exec_eq_next_iff i s t).1 h, commandRun_framed i s⟩

/-- Settles O19: the frame of a command leaves the collectors that are not its own, and completion leaves all. -/
theorem collectorsChangeOnlyByTheirCommands : Obligations.CollectorsChangeOnlyByTheirCommands := by
  unfold Obligations.CollectorsChangeOnlyByTheirCommands
  intro i s t ht
  obtain ⟨u, e, rfl, hframe⟩ := exec_frame ht
  exact ⟨hframe.lich, hframe.pkt, hframe.text⟩

end Sys2Proof.Machine
end

section
/-! # What the host's accesses do (20_memory.md R60 to R68, 10_state.md R26 to R31, R40, 60_exceptions.md R358, R359;
O7, O10, O12, O13, O16)

An access is settled by the location of its address; what it does is then said of the location. -/

namespace Sys2Proof.Machine

/-! ## One bit of a word, as a number -/

theorem getLsbD_iff {w : Nat} (v : BitVec w) (k : Nat) : v.getLsbD k = true ↔ v.toNat / 2 ^ k % 2 = 1 := by
  rw [BitVec.getLsbD, Nat.testBit_eq_decide_div_mod_eq, decide_eq_true_eq]

theorem irq_iff (s : State) : s.irq = true ↔ s.done = true ∧ s.ctrl.toNat % 2 = 1 := by
  rw [State.irq, Bool.and_eq_true, State.irqEn, getLsbD_iff, Nat.pow_zero, Nat.div_one]

/-! ## The address map (20_memory.md R60) -/

/-- The registers lie one after the other from address 0 on. -/
theorem locate_reg {k : Nat} (hk : k ≤ 24) : locate (BitVec.ofNat 12 (4 * k)) 32 = some (regLoc k) := by
  have ha : (BitVec.ofNat 12 (4 * k)).toNat = 4 * k := by rw [BitVec.toNat_ofNat]; omega
  simp only [locate, ha]
  rw [if_pos (by omega), if_pos ⟨trivial, by omega⟩, Nat.mul_div_cancel_left k (by omega)]

theorem locate_arg (n : Fin 8) : locate (BitVec.ofNat 12 (0x010 + 4 * n.val)) 32 = some (.arg n) := by
  rw [show 0x010 + 4 * n.val = 4 * (4 + n.val) by omega, locate_reg (by omega)]
  fin_cases n <;> rfl

theorem locate_res (n : Fin 8) : locate (BitVec.ofNat 12 (0x030 + 4 * n.val)) 32 = some (.res n) := by
  rw [show 0x030 + 4 * n.val = 4 * (12 + n.val) by omega, locate_reg (by omega)]
  fin_cases n <;> rfl

theorem locate_ibuf {i : Nat} (hi : i < 1024) : locate (BitVec.ofNat 12 (0x400 + i)) 8 = some (.ibuf i) := by
  have ha : (BitVec.ofNat 12 (0x400 + i)).toNat = 0x400 + i := by rw [BitVec.toNat_ofNat]; omega
  simp only [locate, ha, ibufBase, obufBase]
  rw [if_neg (by omega), if_neg (by omega), if_pos (by omega), if_pos trivial, Nat.add_sub_cancel_left]

theorem locate_obuf {i : Nat} (hi : i < 1024) : locate (BitVec.ofNat 12 (0x800 + i)) 8 = some (.obuf i) := by
  have ha : (BitVec.ofNat 12 (0x800 + i)).toNat = 0x800 + i := by rw [BitVec.toNat_ofNat]; omega
  simp only [locate, ha, ibufBase, obufBase]
  rw [if_neg (by omega), if_neg (by omega), if_neg (by omega), if_pos (by omega), if_pos trivial, Nat.add_sub_cancel_left]

theorem ite_ne {α : Type} {c : Prop} [Decidable c] {x y z : α} (hx : x ≠ z) (hy : y ≠ z) :
    (if c then x else y) ≠ z := by split <;> assumption

theorem regLoc_ne_ibuf (k i : Nat) : regLoc k ≠ .ibuf i :=
  ite_ne nofun <| ite_ne nofun <| ite_ne nofun <| ite_ne nofun <| ite_ne nofun <| ite_ne nofun <| ite_ne nofun <|
    ite_ne nofun <| ite_ne nofun <| ite_ne nofun nofun

/-- No access reaches past the end of IBUF. -/
theorem ibuf_lt_of_locate {addr : BitVec 12} {width i : Nat} (h : locate addr width = some (.ibuf i)) : i < 1024 := by
  unfold locate at h
  dsimp only at h
  split_ifs at h with hreg _ hgap hibuf _ hobuf
  · exact absurd (Option.some.inj h) (regLoc_ne_ibuf _ i)
  · have hi : addr.toNat - ibufBase = i := Loc.ibuf.inj (Option.some.inj h)
    rw [ibufBase] at hgap hi
    rw [obufBase] at hibuf
    omega
  · exact absurd (Option.some.inj h) Loc.noConfusion

/-! ## The host's turn -/

/-- The host's next event is taken from its list, and one event less may come before the command in flight completes. -/
def State.dequeue (s : State) (rest : List HostEvent) : State := { s with inbox := rest, countdown := s.countdown - 1 }

/-- An event does not reach into what the host is still going to do. -/
theorem hostEvent_inbox (e : HostEvent) (s : State) : (hostEvent e s).inbox = s.inbox := by
  cases e with
  | read addr width =>
    show (hostRead addr width s).inbox = s.inbox
    rcases hostRead_cases addr width s with ⟨-, e⟩ | ⟨-, -, e⟩ | ⟨l, -, -, ⟨-, -, e⟩ | ⟨-, e⟩⟩ <;>
      exact e ▸ rfl
  | write addr width v =>
    show (hostWrite addr width v s).inbox = s.inbox
    rcases hostWrite_cases addr width v s with ⟨-, e⟩ | ⟨-, -, e⟩ | ⟨l, -, -, ⟨-, -, e⟩ | ⟨-, e⟩⟩ <;> rw [e]
    case inr.inr.inr => cases l <;> rfl
    all_goals rfl
  | resetAssert => rfl
  | resetRelease =>
    show (if s.inReset then s.afterReset else s).inbox = s.inbox
    split <;> rfl

/-- What an event does to the state it is offered is what the host's turn does. -/
theorem HostDoes.of_hostEvent {s : State} {e : HostEvent} {post : State → Prop}
    (h : ∀ rest, post (hostEvent e (s.dequeue rest))) : HostDoes s e post := by
  intro rest hinbox hturn
  refine ⟨hostEvent e (s.dequeue rest), ?_, hostEvent_inbox .., h rest⟩
  rw [step, hturn, hostTurn, hinbox]
  rfl

/-! ## Reads -/

theorem BlockKept.dequeue_answer (s : State) (rest : List HostEvent) (r : Reply) :
    BlockKept s ((s.dequeue rest).answer r) :=
  ⟨rfl, rfl, rfl, rfl, rfl, rfl, rfl, rfl, rfl, rfl, rfl, rfl, rfl, rfl, rfl, rfl⟩

theorem BlockKept.dequeue_answerFree (s : State) (rest : List HostEvent) (f : Word → Reply) :
    BlockKept s ((s.dequeue rest).answerFree f) :=
  ⟨rfl, rfl, rfl, rfl, rfl, rfl, rfl, rfl, rfl, rfl, rfl, rfl, rfl, rfl, rfl, rfl⟩

section

variable {s : State} {addr width : Nat} {l : Loc} (hreset : s.inReset = false)
  (hl : locate (BitVec.ofNat 12 addr) width = some l)
include hreset hl

/-- The value at a location, where it is exact (20_memory.md R67, 70_reset_and_hazards.md R384). -/
theorem ReadGives.of_locate {v : Word} (hexact : s.busy = false ∨ l.exactWhileBusy = true) (hv : s.readLoc l = v) :
    ReadGives s addr width v := by
  refine .of_hostEvent fun rest => ?_
  have hkeep : (s.dequeue rest).readLoc l = v := by
    rw [← hv]
    cases l <;> rfl
  have hread : hostRead (BitVec.ofNat 12 addr) width (s.dequeue rest) = (s.dequeue rest).answer (.data v) := by
    rcases hostRead_cases (BitVec.ofNat 12 addr) width (s.dequeue rest) with
      ⟨hr, -⟩ | ⟨-, hn, -⟩ | ⟨l', -, hl', ⟨hbusy, hfree, -⟩ | ⟨-, e⟩⟩
    · exact absurd (hreset.symm.trans hr) Bool.false_ne_true
    · rw [hl] at hn
      cases hn
    · rw [hl] at hl'
      cases hl'
      rcases hexact with h | h
      · exact absurd (h.symm.trans hbusy) Bool.false_ne_true
      · exact absurd (hfree.symm.trans h) Bool.false_ne_true
    · rw [hl] at hl'
      cases hl'
      rw [e, hkeep]
  rw [hostEvent, hread]
  exact ⟨.dequeue_answer .., rfl⟩

/-- Some value at any location, exact or not (20_memory.md R67). -/
theorem ReadAnswered.of_locate : ReadAnswered s addr width := by
  refine .of_hostEvent fun rest => ?_
  rw [hostEvent]
  rcases hostRead_cases (BitVec.ofNat 12 addr) width (s.dequeue rest) with
    ⟨hr, -⟩ | ⟨-, hn, -⟩ | ⟨l', -, -, ⟨-, -, e⟩ | ⟨-, e⟩⟩
  · exact absurd (hreset.symm.trans hr) Bool.false_ne_true
  · rw [hl] at hn
    cases hn
  · rw [e]
    exact ⟨.dequeue_answerFree .., _, rfl⟩
  · rw [e]
    exact ⟨.dequeue_answer .., _, rfl⟩

end

theorem eq_ofNat_of_toNat {v : Word} {n : Nat} (h : v.toNat = n) : v = BitVec.ofNat 32 n := by
  rw [← h, BitVec.ofNat_toNat, BitVec.setWidth_eq]

/-- ERRF at its place in STATUS (10_state.md R26). -/
theorem errFlag_eight (s : State) : s.errFlag.toNat * 8 = if s.errField = 0 then 0 else 8 := by
  rw [State.errFlag, bne]
  by_cases h : s.errField = 0
  · rw [if_pos h, h]
    rfl
  · rw [if_neg h, beq_eq_false_iff_ne.2 h]
    rfl

/-- Settles O10: each address of the host port is a location, and each register a sum of its fields. -/
theorem hostReadsAtAddresses : Obligations.HostReadsAtAddresses := by
  unfold Obligations.HostReadsAtAddresses
  intro s hreset
  refine ⟨.of_locate hreset rfl (.inr rfl) rfl, .of_locate hreset rfl (.inr rfl) rfl,
    .of_locate hreset (l := .status) rfl (.inr rfl) (eq_ofNat_of_toNat ?_),
    .of_locate hreset (l := .cmd) rfl (.inr rfl) rfl, .of_locate hreset rfl (.inr rfl) rfl,
    fun n => .of_locate hreset (locate_arg n) (.inr rfl) rfl,
    fun i hi => .of_locate hreset (locate_ibuf hi) (.inr rfl) rfl, fun hidle => ?_, fun _ => ?_⟩
  · rw [← errFlag_eight]
    exact s.statusWord_toNat
  · exact ⟨fun n => .of_locate hreset (locate_res n) (.inl hidle) rfl,
      .of_locate hreset (l := .lichStat) rfl (.inl hidle) (eq_ofNat_of_toNat s.lich.stat_toNat),
      fun hexp => .of_locate hreset (l := .pktStat) rfl (.inl hidle) (eq_ofNat_of_toNat (s.pkt.stat_toNat hexp)),
      .of_locate hreset (l := .textStat) rfl (.inl hidle) (eq_ofNat_of_toNat s.text.stat_toNat),
      .of_locate hreset (l := .cmdcnt) rfl (.inl hidle) rfl,
      fun i hi => .of_locate hreset (locate_obuf hi) (.inl hidle) rfl⟩
  · exact ⟨fun n => .of_locate hreset (locate_res n), .of_locate hreset (l := .lichStat) rfl,
      .of_locate hreset (l := .pktStat) rfl, .of_locate hreset (l := .textStat) rfl,
      .of_locate hreset (l := .cmdcnt) rfl, fun i hi => .of_locate hreset (locate_obuf hi)⟩

/-! ## Writes -/

/-- A write to a location that takes it: STATUS at any time, every other location while BUSY = 0 (20_memory.md R68). -/
theorem HostDoes.of_writeLoc {s : State} {addr : BitVec 12} {width : Nat} {v : Word} {l : Loc} {post : State → Prop}
    (hreset : s.inReset = false) (hl : locate addr width = some l) (htakes : s.busy = false ∨ l = .status)
    (h : ∀ rest, post (((s.dequeue rest).writeLoc v l).answer .written)) :
    HostDoes s (.write addr width v) post := by
  refine .of_hostEvent fun rest => ?_
  have hwrite : hostWrite addr width v (s.dequeue rest) = ((s.dequeue rest).writeLoc v l).answer .written := by
    rcases hostWrite_cases addr width v (s.dequeue rest) with
      ⟨hr, -⟩ | ⟨-, hn, -⟩ | ⟨l', -, hl', ⟨hbusy, hne, -⟩ | ⟨-, e⟩⟩
    · exact absurd (hreset.symm.trans hr) Bool.false_ne_true
    · rw [hl] at hn
      cases hn
    · rw [hl] at hl'
      cases hl'
      exact absurd htakes fun ht => ht.elim (fun h => Bool.false_ne_true (h.symm.trans hbusy)) hne
    · rw [hl] at hl'
      cases hl'
      exact e
  rw [hostEvent, hwrite]
  exact h rest

/-- Settles O7: a CMD write is an acceptance, and STATUS is read off it field by field. -/
theorem acceptanceLatches : Obligations.AcceptanceLatches := by
  unfold Obligations.AcceptanceLatches
  intro s w hreset hidle
  refine .of_writeLoc hreset (l := .cmd) rfl (.inl hidle) fun rest => ?_
  have hlastop : (w.extractLsb' 0 8).toNat = w.toNat % 256 := by
    rw [BitVec.extractLsb'_toNat, Nat.shiftRight_zero]
  have hstatus := State.statusWord_toNat (((s.dequeue rest).accept w).answer .written)
  refine ⟨rfl, rfl, rfl, rfl, rfl, rfl, hlastop, rfl, hstatus.trans ?_, rfl, rfl, rfl, rfl, rfl, rfl, rfl, rfl, rfl⟩
  show w.toNat % 2 ^ 8 * 2 ^ 24 + 0 * 2 ^ 16 + 0 * 2 ^ 8 + 0 * 8 + s.viol.toNat * 4 + 0 * 2 + 1
    = w.toNat % 256 * 2 ^ 24 + s.viol.toNat * 4 + 1
  omega

/-- A flag after a write that clears it where bit k is 1 (60_exceptions.md R359). -/
theorem cleared_flag_iff (b : Bool) (v : Word) (k : Nat) :
    (b && !v.getLsbD k) = true ↔ b = true ∧ v.toNat / 2 ^ k % 2 = 0 := by
  have hbit := getLsbD_iff v k
  rw [Bool.and_eq_true, Bool.not_eq_true', ← Bool.not_eq_true, hbit]
  exact and_congr_right fun _ => Nat.mod_two_ne_one

/-- Settles O12: a STATUS write takes effect whatever BUSY is, and writes DONE and VIOL only. -/
theorem statusWriteClears : Obligations.StatusWriteClears := by
  unfold Obligations.StatusWriteClears
  intro s v hreset
  refine .of_writeLoc hreset (l := .status) rfl (.inr rfl) fun rest => ?_
  exact ⟨⟨rfl, rfl, rfl, rfl, rfl, rfl, rfl, rfl, rfl, rfl, rfl, rfl, rfl, rfl, rfl, rfl⟩, rfl,
    cleared_flag_iff s.done v 1, cleared_flag_iff s.viol v 2⟩

/-! ## The IRQ line -/

/-- A completion raises the IRQ line where it is enabled; no command writes CTRL (60_exceptions.md R358). -/
theorem irq_of_exec {i : Instr} {s t : State} (h : exec i s = .next t) : t.irq = true ↔ s.ctrl.toNat % 2 = 1 := by
  obtain ⟨u, e, rfl, hframe⟩ := exec_frame h
  obtain ⟨-, hctrl, -⟩ := hframe.host
  rw [irq_iff, State.complete_done, State.complete_ctrl, hctrl]
  exact and_iff_right rfl

/-- Settles O13: DONE is set by a completion and cleared by an acceptance, IRQ_EN is bit 0 of CTRL. -/
theorem interruptLine : Obligations.InterruptLine := by
  unfold Obligations.InterruptLine
  refine ⟨irq_iff, fun i s => ⟨_, exec_eq_finish i s, irq_of_exec (exec_eq_finish i s)⟩, fun s w hreset hidle => ?_,
    fun s v hreset hidle => ?_, rfl⟩
  · exact .of_writeLoc hreset (l := .cmd) rfl (.inl hidle) fun _ => rfl
  · refine .of_writeLoc hreset (l := .ctrl) rfl (.inl hidle) fun rest => (irq_iff _).trans ?_
    have hctrl : (v.extractLsb' 0 3).toNat % 2 = v.toNat % 2 := by
      rw [BitVec.extractLsb'_toNat, Nat.shiftRight_zero]
      omega
    show s.done = true ∧ (v.extractLsb' 0 3).toNat % 2 = 1 ↔ _
    rw [hctrl]

/-! ## Every step keeps the invariant -/

namespace State.Inv

variable {s : State} (h : s.Inv)
include h

theorem exec {i : Instr} {t : State} (ht : exec i s = .next t) : t.Inv := by
  obtain ⟨u, e, rfl, hframe⟩ := exec_frame ht
  exact (hframe.inv h).complete e

theorem hostRead (addr : BitVec 12) (width : Nat) : (hostRead addr width s).Inv := by
  rcases hostRead_cases addr width s with ⟨-, e⟩ | ⟨-, -, e⟩ | ⟨l, -, -, ⟨-, -, e⟩ | ⟨-, e⟩⟩
  · exact e ▸ h.answerFree _
  · exact e ▸ h.answerFree _
  · exact e ▸ h.answerFree _
  · exact e ▸ h.answer _

theorem writeLoc (v : Word) {l : Loc} (hl : ∀ i, l = .ibuf i → i < 1024) : (s.writeLoc v l).Inv := by
  cases l with
  | ctrl => exact h.writeCtrl v
  | status => exact h.writeStatus v
  | cmd => exact h.accept v
  | arg n => exact h.setArg n v
  | ibuf i => exact h.writeIb _ (hl i rfl)
  | id | res | lichStat | pktStat | textStat | cmdcnt | param | obuf => exact h

theorem hostWrite (addr : BitVec 12) (width : Nat) (v : Word) : (hostWrite addr width v s).Inv := by
  rcases hostWrite_cases addr width v s with ⟨-, e⟩ | ⟨-, -, e⟩ | ⟨l, -, hl, ⟨-, -, e⟩ | ⟨-, e⟩⟩
  · exact e ▸ h.answer _
  · exact e ▸ h.answer _
  · exact e ▸ h.setViol.answer _
  · exact e ▸ (h.writeLoc v fun i hi => ibuf_lt_of_locate (hi ▸ hl)).answer _

theorem hostEvent (e : HostEvent) : (hostEvent e s).Inv := by
  cases e with
  | read addr width => exact h.hostRead addr width
  | write addr width v => exact h.hostWrite addr width v
  | resetAssert => exact ⟨h.mem_wf, h.mem_inside, h.lich, h.pkt, h.text, h.in_flight⟩
  | resetRelease =>
    show (if s.inReset then s.afterReset else s).Inv
    split
    · exact s.inv_afterReset
    · exact h

theorem dequeue (rest : List HostEvent) : (s.dequeue rest).Inv :=
  ⟨h.mem_wf, h.mem_inside, h.lich, h.pkt, h.text, h.in_flight⟩

theorem hostTurn : (hostTurn s).Inv := by
  rcases hostTurn_cases s with ⟨-, e⟩ | ⟨event, rest, -, e⟩
  · rw [e]
    exact h
  · rw [e]
    exact (h.dequeue rest).hostEvent event

end State.Inv

/-- Settles O16: a step is a command, the completion of an illegal word, or the host's turn, and each keeps the
invariant. -/
theorem invariantKept : Obligations.InvariantKept := by
  unfold Obligations.InvariantKept
  intro s t hs ht
  rcases step_cases s with ⟨-, i, -, e⟩ | ⟨-, x, -, e⟩ | ⟨-, e⟩
  · exact hs.exec (e.symm.trans ht)
  · cases e.symm.trans ht
    exact hs.complete _
  · cases e.symm.trans ht
    exact hs.hostTurn

end Sys2Proof.Machine
end

section
/-! # What the host writes (20_memory.md R60, R63, R71, 10_state.md R21, R25, R32; O11)

A write that is taken acts on the location of its address. ARG, CTRL and IBUF have each their own operation of the state;
on a read-only location a write leaves the state as it is. -/

namespace Sys2Proof.Machine

/-- CTRL as the host reads it back: bits 31:3 of the word written are ignored (10_state.md R25). -/
theorem State.writeCtrl_ctrlWord_toNat (s : State) (v : Word) : (s.writeCtrl v).ctrlWord.toNat = v.toNat % 8 := by
  rw [State.ctrlWord, State.writeCtrl_ctrl, BitVec.toNat_setWidth, BitVec.extractLsb'_toNat, Nat.shiftRight_zero]
  omega

theorem State.writeIb_byteAt (s : State) (i : Nat) (v : Byte) (a : Nat) :
    (s.writeIb i v).byteAt a = if a = 0x400 + i then v else s.byteAt a := State.byteAt_write ..

theorem State.writeIb_ib_self (s : State) (i : Nat) (v : Byte) : (s.writeIb i v).ib i = v :=
  (s.writeIb_byteAt i v _).trans (if_pos rfl)

/-- A write to a location that no write changes is accepted on the bus and is ignored (20_memory.md R63). -/
theorem WriteIgnored.of_writeLoc_eq {s : State} {addr width : Nat} (hreset : s.inReset = false)
    (hidle : s.busy = false) (l : Loc) (hl : locate (BitVec.ofNat 12 addr) width = some l)
    (hro : ∀ (u : State) (v : Word), u.writeLoc v l = u) : WriteIgnored s addr width := by
  refine fun v => .of_writeLoc hreset hl (.inl hidle) fun rest => ?_
  rw [hro]
  exact ⟨.dequeue_answer .., rfl⟩

/-- Settles O11: a write acts on the location of its address, by the one operation of the state that location has. -/
theorem hostWritesAtAddresses : Obligations.HostWritesAtAddresses := by
  unfold Obligations.HostWritesAtAddresses
  intro s hreset hidle
  refine ⟨fun n v => ?arg, fun v => ?ctrl, fun i hi v => ?ibuf, .of_writeLoc_eq hreset hidle .id rfl fun _ _ => rfl,
    fun n => .of_writeLoc_eq hreset hidle (.res n) (locate_res n) fun _ _ => rfl,
    .of_writeLoc_eq hreset hidle .lichStat rfl fun _ _ => rfl, .of_writeLoc_eq hreset hidle .pktStat rfl fun _ _ => rfl,
    .of_writeLoc_eq hreset hidle .textStat rfl fun _ _ => rfl, .of_writeLoc_eq hreset hidle .cmdcnt rfl fun _ _ => rfl,
    .of_writeLoc_eq hreset hidle .param rfl fun _ _ => rfl,
    fun i hi => .of_writeLoc_eq hreset hidle (.obuf i) (locate_obuf hi) fun _ _ => rfl⟩
  case arg =>
    refine .of_writeLoc hreset (locate_arg n) (.inl hidle) fun rest => ?_
    exact ⟨.dequeue_answer (s.setArg n v) .., rfl, (s.setArg_argReg n v n).trans (if_pos rfl),
      fun m hm => (s.setArg_argReg n v m).trans (if_neg hm)⟩
  case ctrl =>
    refine .of_writeLoc hreset (l := .ctrl) rfl (.inl hidle) fun rest => ?_
    exact ⟨.dequeue_answer (s.writeCtrl v) .., rfl, s.writeCtrl_ctrlWord_toNat v⟩
  case ibuf =>
    refine .of_writeLoc hreset (locate_ibuf hi) (.inl hidle) fun rest => ?_
    exact ⟨.dequeue_answer (s.writeIb i (v.setWidth 8)) .., rfl,
      (congrArg BitVec.toNat (s.writeIb_ib_self i _)).trans (BitVec.toNat_setWidth ..),
      fun a ha => (s.writeIb_byteAt i _ a).trans (if_neg ha)⟩

end Sys2Proof.Machine
end

section
/-! # Decoding and encoding (30_encoding.md R90 to R98, R101; O2, O3, O4)

A command word that decodes is read through the one row of R101 with its opcode. What a row says of the commands it
makes is said once, and what the checks of R98 ask of a word is one Bool per check. -/

namespace Sys2Proof

open Sys2Proof.Machine

/-! ## The fields of a word, as numbers (R90) -/

@[simp] theorem opcField_toNat (w : Word) : (opcField w).toNat = w.toNat % 256 := by
  simp [opcField, BitVec.extractLsb'_toNat]

@[simp] theorem schedField_toNat (w : Word) : (schedField w).toNat = w.toNat / 2 ^ 8 % 16 := by
  simp [schedField, BitVec.extractLsb'_toNat, Nat.shiftRight_eq_div_pow]

@[simp] theorem reservedField_toNat (w : Word) : (reservedField w).toNat = w.toNat / 2 ^ 13 % 8 := by
  simp [reservedField, BitVec.extractLsb'_toNat, Nat.shiftRight_eq_div_pow]

@[simp] theorem lenField_toNat (w : Word) : (lenField w).toNat = w.toNat / 2 ^ 16 := by
  have := w.isLt
  simp only [lenField, BitVec.extractLsb'_toNat, Nat.shiftRight_eq_div_pow]
  omega

theorem softField_iff (w : Word) : softField w = true ↔ w.toNat / 2 ^ 12 % 2 ≠ 0 := by
  rw [softField, getLsbD_iff]
  omega

/-- A word whose reserved bits are 0 is made of its fields. -/
theorem commandWord_of_fields {w : Word} (hres : reservedField w = 0) :
    commandWord (lenField w) (softField w) (schedField w) (opcField w) = w := by
  refine BitVec.eq_of_getLsbD_eq fun i hi => ?_
  rw [commandWord_getLsbD]
  split_ifs with h8 h12 h13 h16
  · simp [opcField, h8]
  · simp only [schedField, BitVec.getLsbD_extractLsb', show i - 8 < 4 by omega, decide_true, Bool.true_and,
      show 8 + (i - 8) = i by omega]
  · rw [softField, show i = 12 by omega]
  · have hbit := congrArg (BitVec.getLsbD · (i - 13)) hres
    simpa [reservedField, show i - 13 < 3 by omega, show 13 + (i - 13) = i by omega] using hbit.symm
  · simp only [lenField, BitVec.getLsbD_extractLsb', show i - 16 < 16 by omega, decide_true, Bool.true_and,
      show 16 + (i - 16) = i by omega]

/-! ## The rows of the opcode map (R101) -/

/-- What a row says of a command it makes: its opcode, its operands, 0 where the row does not use the field, and when
it is well-formed. -/
structure OpRow.Describes (r : OpRow) (len : BitVec 16) (sched : BitVec 4) (soft : Bool) (i : Instr) : Prop where
  opcode : i.opcode = r.opc
  lenOperand : i.lenOperand = if r.usesLen then len else 0
  schedOperand : i.schedOperand = if r.usesSched then sched else 0
  softOperand : i.softOperand = (r.usesSoft && soft)
  wellFormed : i.wellFormed = (!r.usesSched || schedOk sched)

theorem OpRow.describes_make {r : OpRow} (hr : r ∈ opMap) (len : BitVec 16) (sched : BitVec 4) (soft : Bool) :
    r.Describes len sched soft (r.make len sched soft) := by
  fin_cases hr <;> exact ⟨rfl, rfl, rfl, rfl, rfl⟩

/-- The columns of R101 that say which fields a row uses are the lists of R92, R93 and R94. -/
theorem OpRow.uses_iff_of_mem : ∀ r ∈ opMap, (r.usesLen = true ↔ r.opc.toNat ∈ lenOpc)
    ∧ (r.usesSched = true ↔ r.opc.toNat ∈ schedOpc) ∧ (r.usesSoft = true ↔ r.opc.toNat ∈ softOpc) := by
  decide

/-- The row with an opcode, where there is one. -/
def rowAt (opc : BitVec 8) : Option OpRow := opMap.find? fun r => r.opc == opc

theorem mem_opMap_of_rowAt {opc : BitVec 8} {r : OpRow} (h : rowAt opc = some r) : r ∈ opMap :=
  List.mem_of_find?_eq_some h

theorem opc_of_rowAt {opc : BitVec 8} {r : OpRow} (h : rowAt opc = some r) : r.opc = opc :=
  by simpa using List.find?_some h

/-- The opcodes without a row are those R101 prints as reserved. -/
theorem rowAt_isNone : ∀ opc : BitVec 8, (rowAt opc).isNone = reservedOpc opc.toNat := by
  decide

/-- Every command is made by the row with its opcode, of its own operands. -/
theorem Instr.exists_row (i : Instr) :
    ∃ r, rowAt i.opcode = some r ∧ r.make i.lenOperand i.schedOperand i.softOperand = i := by
  cases i <;> exact ⟨_, rfl, rfl⟩

/-! ## The checks of R98 -/

/-- Check 2 fails: a reserved bit is set, or a field that the row does not use is nonzero (R95, R96). -/
def OpRow.failsZero (r : OpRow) (w : Word) : Bool :=
  reservedField w != 0 || (!r.usesLen && lenField w != 0) || (!r.usesSched && schedField w != 0)
    || (!r.usesSoft && softField w)

/-- Check 3 fails: SCHED is used and is 4 or more (R92). -/
def OpRow.failsSched (r : OpRow) (w : Word) : Bool := r.usesSched && !schedOk (schedField w)

theorem OpRow.read_eq (r : OpRow) (w : Word) :
    r.read w = if r.failsZero w then .error .nonzeroField else if r.failsSched w then .error .badSched
      else .ok (r.make (lenField w) (schedField w) (softField w)) := by
  simp only [OpRow.read, OpRow.failsZero, OpRow.failsSched]
  split_ifs <;> grind

theorem OpRow.failsZero_eq_false_iff (r : OpRow) (w : Word) :
    r.failsZero w = false ↔ reservedField w = 0 ∧ (r.usesLen = false → lenField w = 0)
      ∧ (r.usesSched = false → schedField w = 0) ∧ (r.usesSoft = false → softField w = false) := by
  simp [OpRow.failsZero, and_assoc]

theorem OpRow.failsSched_eq_false_iff (r : OpRow) (w : Word) :
    r.failsSched w = false ↔ (!r.usesSched || schedOk (schedField w)) = true := by
  simp [OpRow.failsSched, imp_iff_not_or]

theorem OpRow.read_eq_ok_iff (r : OpRow) (w : Word) (i : Instr) :
    r.read w = .ok i ↔ r.failsZero w = false ∧ r.failsSched w = false
      ∧ r.make (lenField w) (schedField w) (softField w) = i := by
  rw [OpRow.read_eq]
  split_ifs <;> simp_all

theorem OpRow.read_eq_nonzeroField_iff (r : OpRow) (w : Word) :
    r.read w = .error .nonzeroField ↔ r.failsZero w = true := by
  rw [OpRow.read_eq]
  split_ifs <;> simp_all

theorem OpRow.read_eq_badSched_iff (r : OpRow) (w : Word) :
    r.read w = .error .badSched ↔ r.failsZero w = false ∧ r.failsSched w = true := by
  rw [OpRow.read_eq]
  split_ifs <;> simp_all

theorem OpRow.read_ne_reservedOpcode (r : OpRow) (w : Word) : r.read w ≠ .error .reservedOpcode := by
  rw [OpRow.read_eq]
  split_ifs <;> simp

theorem decode_of_rowAt_none {w : Word} (h : rowAt (opcField w) = none) : decode w = .error .reservedOpcode := by
  rw [rowAt] at h
  rw [decode, h]

theorem decode_of_rowAt_some {w : Word} {r : OpRow} (h : rowAt (opcField w) = some r) : decode w = r.read w := by
  rw [rowAt] at h
  rw [decode, h]

/-! ## The round trip (O3) -/

theorem decode_encode {i : Instr} (hwf : i.wellFormed = true) : decode (encode i) = .ok i := by
  obtain ⟨hopc, hsched, hsoft, hres, hlen⟩ :=
    commandWord_fields i.lenOperand i.softOperand i.schedOperand i.opcode
  obtain ⟨r, hrow, hmake⟩ := i.exists_row
  have hdesc := r.describes_make (mem_opMap_of_rowAt hrow) i.lenOperand i.schedOperand i.softOperand
  rw [hmake] at hdesc
  rw [encode, decode_of_rowAt_some ((congrArg rowAt hopc).trans hrow), r.read_eq_ok_iff, r.failsZero_eq_false_iff,
    r.failsSched_eq_false_iff, hlen, hsched, hsoft]
  refine ⟨⟨hres, fun hu => ?_, fun hu => ?_, fun hu => ?_⟩, hdesc.wellFormed.symm.trans hwf, hmake⟩
  · simpa [hu] using hdesc.lenOperand
  · simpa [hu] using hdesc.schedOperand
  · simpa [hu] using hdesc.softOperand

theorem wellFormed_and_encode_of_decode {w : Word} {i : Instr} (h : decode w = .ok i) :
    i.wellFormed = true ∧ encode i = w := by
  cases hrow : rowAt (opcField w) with
  | none => simp [decode_of_rowAt_none hrow] at h
  | some r =>
    rw [decode_of_rowAt_some hrow, r.read_eq_ok_iff, r.failsZero_eq_false_iff, r.failsSched_eq_false_iff] at h
    obtain ⟨⟨hres, hlen, hsched, hsoft⟩, hwf, rfl⟩ := h
    have hdesc := r.describes_make (mem_opMap_of_rowAt hrow) (lenField w) (schedField w) (softField w)
    have hlen' : (if r.usesLen then lenField w else 0) = lenField w :=
      ite_eq_left_iff.2 fun hu => (hlen (Bool.eq_false_of_not_eq_true hu)).symm
    have hsched' : (if r.usesSched then schedField w else 0) = schedField w :=
      ite_eq_left_iff.2 fun hu => (hsched (Bool.eq_false_of_not_eq_true hu)).symm
    have hsoft' : (r.usesSoft && softField w) = softField w := by
      cases hu : r.usesSoft
      · exact (hsoft hu).symm
      · rfl
    refine ⟨hdesc.wellFormed.trans hwf, ?_⟩
    rw [encode, hdesc.lenOperand, hdesc.softOperand, hdesc.schedOperand, hdesc.opcode, hlen', hsched', hsoft',
      opc_of_rowAt hrow, commandWord_of_fields hres]

/-- Settles O3: both directions go through the row of the command's opcode, whose unused fields are 0 in the word as in
the command's operands. -/
theorem decodeEncodeRoundTrip : Obligations.DecodeEncodeRoundTrip :=
  ⟨fun _ => decode_encode, fun _ _ => wellFormed_and_encode_of_decode⟩

/-! ## The order of the checks (O4) -/

theorem decode_eq_reservedOpcode_iff (w : Word) :
    decode w = .error .reservedOpcode ↔ reservedOpc (w.toNat % 256) = true := by
  rw [← opcField_toNat, ← rowAt_isNone]
  cases hrow : rowAt (opcField w) with
  | none => simp [decode_of_rowAt_none hrow]
  | some r => simp [decode_of_rowAt_some hrow, r.read_ne_reservedOpcode]

theorem exists_rowAt {w : Word} (h : reservedOpc (w.toNat % 256) = false) : ∃ r, rowAt (opcField w) = some r := by
  rw [← opcField_toNat, ← rowAt_isNone] at h
  exact Option.isSome_iff_exists.1 (by simpa using h)

/-- Check 2 on the row of a word's opcode is the check as R95 and R96 print it. -/
theorem OpRow.failsZero_iff {r : OpRow} {w : Word} (hrow : rowAt (opcField w) = some r) :
    r.failsZero w = true ↔ nonzeroField w.toNat := by
  obtain ⟨hlen, hsched, hsoft⟩ := r.uses_iff_of_mem (mem_opMap_of_rowAt hrow)
  rw [opc_of_rowAt hrow, opcField_toNat] at hlen hsched hsoft
  simp only [OpRow.failsZero, nonzeroField, Bool.or_eq_true, Bool.and_eq_true, bne_iff_ne, Bool.not_eq_true', ne_eq,
    ← hlen, ← hsched, ← hsoft, ← softField_iff, Bool.not_eq_true, or_assoc, ← BitVec.toNat_inj, reservedField_toNat,
    lenField_toNat, schedField_toNat]
  rfl

theorem OpRow.failsSched_iff {r : OpRow} {w : Word} (hrow : rowAt (opcField w) = some r) :
    r.failsSched w = true ↔ w.toNat % 256 ∈ schedOpc ∧ 4 ≤ w.toNat / 2 ^ 8 % 16 := by
  obtain ⟨-, hsched, -⟩ := r.uses_iff_of_mem (mem_opMap_of_rowAt hrow)
  rw [opc_of_rowAt hrow, opcField_toNat] at hsched
  rw [OpRow.failsSched, Bool.and_eq_true, hsched, ← schedField_toNat]
  simp [Nat.lt_iff_add_one_le]

/-- Settles O4: a word with a reserved opcode has no row; for any other, each check is that of the row of its opcode. -/
theorem decodeChecksInOrder : Obligations.DecodeChecksInOrder := by
  unfold Obligations.DecodeChecksInOrder
  intro w
  refine ⟨decode_eq_reservedOpcode_iff w, ?_⟩
  cases hres : reservedOpc (w.toNat % 256) with
  | true => simp [(decode_eq_reservedOpcode_iff w).2 hres]
  | false =>
    obtain ⟨r, hrow⟩ := exists_rowAt hres
    have hzero : r.failsZero w = false ↔ ¬ nonzeroField w.toNat := by
      rw [← OpRow.failsZero_iff hrow, Bool.not_eq_true]
    rw [decode_of_rowAt_some hrow, r.read_eq_nonzeroField_iff, r.read_eq_badSched_iff, hzero,
      OpRow.failsZero_iff hrow, OpRow.failsSched_iff hrow]
    exact ⟨(and_iff_right rfl).symm, (and_iff_right rfl).symm⟩

/-! ## Sample words (O2) -/

/-- Settles O2: a word that stands for a command is that command's encoding; the refused words fail the checks of O4. -/
theorem sampleWordsDecode : Obligations.SampleWordsDecode := by
  refine ⟨decode_encode (i := .nop) rfl, decode_encode (i := .clear) rfl, decode_encode (i := .crc16 1024) rfl,
    decode_encode (i := .crc16Chk 11) rfl, decode_encode (i := .b40Enc 5) rfl, decode_encode (i := .b40Decb) rfl,
    decode_encode (i := .typeDet) rfl, decode_encode (i := .golayDec) rfl, decode_encode (i := .lichSdec) rfl,
    decode_encode (i := .convEnc 8 3) rfl, decode_encode (i := .punct 24 2) rfl, decode_encode (i := .viterbi 508 1) rfl,
    decode_encode (i := .intlv 368 false) rfl, decode_encode (i := .rand 368 true) rfl,
    decode_encode (i := .prbsGen 197) rfl, decode_encode (i := .lsfBuild) rfl, decode_encode (i := .textPack 195) rfl,
    decode_encode (i := .lichRx) rfl, decode_encode (i := .pktBuild 822) rfl, decode_encode (i := .pktAccept) rfl,
    decode_encode (i := .ipParse) rfl, decode_encode (i := .strRx) rfl, decode_encode (i := .bertRx) rfl, ?_⟩
  decide

end Sys2Proof
end

section
/-! # NOP and CLEAR (40_control.md R120, R121; O21)

NOP is the common completion and nothing else. CLEAR puts each collector in its reset state, in which its status
register reads 0, and zeroes the result registers. -/

namespace Sys2Proof.Machine

/-- STATUS after a completion without error: DONE = 1, and BUSY, ERR, SUB and ERRF are 0 (60_exceptions.md R353). -/
theorem State.complete_none_statusWord_toNat (s : State) :
    (s.complete none).statusWord.toNat = s.cmd.toNat % 256 * 2 ^ 24 + s.viol.toNat * 4 + 2 := by
  simp [State.statusWord_toNat, State.subField, State.errFlag, State.errField]

/-! ## The reset states of the collectors (10_state.md R34 to R36) -/

@[simp] theorem LichCollector.empty_slots_getElem (k : Fin 6) : LichCollector.empty.slots[k] = Slot.empty := by
  simp [LichCollector.empty]

@[simp] theorem LichCollector.empty_stat : LichCollector.empty.stat = 0 := by decide

/-- PKT_STAT does not depend on which unspecified contents PBUF has. -/
@[simp] theorem PacketReassembler.idle_stat (epoch : Nat) : (PacketReassembler.idle epoch).stat = 0 := by
  change (PacketReassembler.idle 0).stat = 0
  decide

/-- TEXT_STAT does not depend on which unspecified contents TBUF has. -/
@[simp] theorem TextCollector.idle_stat (epoch : Nat) : (TextCollector.idle epoch).stat = 0 := by
  change (TextCollector.idle 0).stat = 0
  decide

/-! ## The two commands -/

/-- NOP changes nothing beyond its completion (40_control.md R120). -/
theorem nop_yields (s : State) : Yields .nop s none [] 0 fun t =>
    t.statusWord.toNat = s.cmd.toNat % 256 * 2 ^ 24 + s.viol.toNat * 4 + 2 :=
  Yields.of_run s.ok (exec_eq_finish .nop s) rfl (HostSideKept.refl s) rfl ⟨rfl, rfl, rfl⟩ (fun _ _ => rfl)
    (fun _ _ => rfl) s.complete_none_statusWord_toNat

/-- The host's side is not among what CLEAR writes (40_control.md R121). -/
theorem clearRun_hostSideKept (s : State) : HostSideKept s (clearRun s).state :=
  ⟨rfl, rfl, rfl, rfl, rfl, rfl, rfl, rfl, rfl, rfl, rfl⟩

/-- CLEAR zeroes every result register (40_control.md R121). -/
theorem clearRun_resReg (s : State) (n : Fin 8) : (clearRun s).state.resReg n = 0 := by
  rw [clearRun, State.ok_state, State.clearRes_resReg]

/-- CLEAR writes the collectors and the result registers (40_control.md R121): what holds of its completed run follows
from its effect on these four. -/
theorem clear_gives (s : State) {post : State → Prop}
    (h : ∀ t : State, t.lich = LichCollector.empty → t.pkt = PacketReassembler.idle (s.pkt.epoch + 1) →
      t.text = TextCollector.idle (s.text.epoch + 1) → (∀ n, t.resReg n = 0) → post t) :
    Gives .clear s none [0, 1, 2, 3, 4, 5, 6, 7] 0 post := by
  have hwritten : ∀ m : Fin 8, m ∈ ([0, 1, 2, 3, 4, 5, 6, 7] : List (Fin 8)) := by decide
  exact Gives.of_run (clearRun s) (exec_eq_finish .clear s) rfl (clearRun_hostSideKept s) rfl
    (fun m hm => absurd (hwritten m) hm) (fun _ _ => rfl) (h _ rfl rfl rfl (clearRun_resReg s))

/-- Settles O21: NOP is the completion alone; CLEAR leaves each collector in its reset state. -/
theorem controlCommands : Obligations.ControlCommands := by
  unfold Obligations.ControlCommands
  refine ⟨nop_yields, fun s => clear_gives s fun t hlich hpkt htext hres => ⟨hres, fun k => ?slots, ?rest⟩⟩
  case slots =>
    rw [hlich, LichCollector.empty_slots_getElem]
    exact ⟨rfl, rfl, rfl⟩
  case rest =>
    rw [hlich, hpkt, htext]
    exact ⟨rfl, rfl, rfl, rfl, rfl, rfl, rfl, LichCollector.empty_stat, PacketReassembler.idle_stat _,
      TextCollector.idle_stat _⟩

end Sys2Proof.Machine
end

section
/-! # Results and argument registers as numbers (10_state.md R21, R22, 20_memory.md R66)

A result register that was written with a number holds that number where it fits; what a command yields is said of the
state it answers. -/

namespace Sys2Proof.Machine

/-! ## Result registers -/

theorem ResAddr.of_ofNat {t : State} {lo hi : Fin 8} {n : Nat} (hn : n < 2 ^ 64)
    (hlo : t.resReg lo = BitVec.ofNat 32 (n % 2 ^ 32)) (hhi : t.resReg hi = BitVec.ofNat 32 (n / 2 ^ 32)) :
    ResAddr t lo hi n := by
  rw [ResAddr, hlo, hhi, BitVec.toNat_ofNat, BitVec.toNat_ofNat]
  omega

theorem ResIs.of_ofNat {t : State} {m : Fin 8} {v : Nat} (hv : v < 2 ^ 32) (h : t.resReg m = BitVec.ofNat 32 v) :
    ResIs t m v := by
  rw [ResIs, h, BitVec.toNat_ofNat, Nat.mod_eq_of_lt hv]

/-! ## Argument registers -/

/-- ARGn[31:lo] is 0 exactly when ARGn has lo bits (10_state.md R21). -/
theorem State.argHigh_ne_zero_iff (s : State) (n : Fin 8) (lo : Nat) :
    s.argHigh n lo ≠ 0 ↔ 2 ^ lo ≤ (s.argReg n).toNat := by
  rw [State.argHigh, Nat.shiftRight_eq_div_pow, Nat.div_ne_zero_iff]
  simp

theorem State.argAddr_of_lt {s : State} {lo hi : Fin 8} (h : (s.argReg hi).toNat < 2 ^ 16) :
    s.argAddr lo hi = (s.argReg hi).toNat * 2 ^ 32 + (s.argReg lo).toNat := by
  rw [State.argAddr, State.argField, BitVec.toNat_setWidth, Nat.mod_eq_of_lt h]

/-! ## Using what a command yields -/

/-- The state a command answers is the one its `Yields` speaks of. -/
theorem Yields.of_next {i : Instr} {s t : State} {e : Option Err} {w : List (Fin 8)} {n : Nat} {post : State → Prop}
    (h : Yields i s e w n post) (ht : exec i s = .next t) : t.error = e ∧ post t := by
  obtain ⟨t', ht', ⟨-, -, herror, -⟩, -, -, -, hpost⟩ := h
  cases ht.symm.trans ht'
  exact ⟨herror, hpost⟩

theorem Yields.imp {i : Instr} {s : State} {e : Option Err} {w : List (Fin 8)} {n : Nat} {post post' : State → Prop}
    (h : Yields i s e w n post) (himp : ∀ t, post t → post' t) : Yields i s e w n post' := by
  obtain ⟨t, ht, hdone, hres, hbytes, hkept, hpost⟩ := h
  exact ⟨t, ht, hdone, hres, hbytes, hkept, himp t hpost⟩

end Sys2Proof.Machine
end

section
/-! # Base-40 numbers and texts (41_address.md R130, R132, R133)

On this hardware the first byte of a text is its least significant digit, so a text is a digit expansion read from the
front: `enc40` evaluates it and `digits40` gives it back without its leading zero digits, which are the spaces at the
end of the text. -/

namespace Sys2Proof.Machine

/-! ## The alphabet (R130) -/

/-- The index of a byte is a place of the alphabet that holds the byte. -/
theorem idx40_eq_some {c : Byte} {i : Nat} (h : idx40 c = some i) : i < 40 ∧ a40 i = c := by
  obtain ⟨hi, hc, -⟩ := List.findIdx?_eq_some_iff_getElem.1 h
  refine ⟨hi, ?_⟩
  rw [a40, List.getD_eq_getElem?_getD, List.getElem?_eq_getElem hi]
  exact beq_iff_eq.1 hc

theorem idx40_eq_none_iff (c : Byte) : idx40 c = none ↔ c ∉ alphabet40 := by
  simp only [idx40, List.findIdx?_eq_none_iff, beq_eq_false_iff_ne]
  exact ⟨fun h hc => h c hc rfl, fun h x hx hxc => h (hxc ▸ hx)⟩

theorem digit40_lt (c : Byte) : digit40 c < 40 := by
  unfold digit40
  cases h : idx40 c with
  | none => decide
  | some i => exact (idx40_eq_some h).1

theorem a40_digit40 {c : Byte} (h : inAlphabet c = true) : a40 (digit40 c) = c := by
  obtain ⟨i, hi⟩ := Option.isSome_iff_exists.1 h
  rw [digit40, hi]
  exact (idx40_eq_some hi).2

theorem digit40_a40 : ∀ i < 40, digit40 (a40 i) = i := by decide

@[simp] theorem digit40_space : digit40 0x20 = 0 := by decide

/-- The space is the only digit 0 of the alphabet. -/
theorem digit40_eq_zero_iff {c : Byte} (h : inAlphabet c = true) : digit40 c = 0 ↔ c = 0x20 := by
  refine ⟨fun h0 => ?_, fun hc => hc ▸ digit40_space⟩
  rw [← a40_digit40 h, h0]
  rfl

/-! ## Dropping trailing bytes -/

@[simp] theorem trimEnd_nil (b : Byte) : trimEnd b [] = [] := rfl

/-- A byte goes exactly when it is the dropped one and everything after it goes. -/
theorem trimEnd_cons (b c : Byte) (d : Bytes) :
    trimEnd b (c :: d) = if trimEnd b d = [] ∧ c = b then [] else c :: trimEnd b d := by
  simp only [trimEnd, List.reverse_cons, List.dropWhile_append, List.isEmpty_iff, List.reverse_eq_nil_iff]
  by_cases hd : d.reverse.dropWhile (· == b) = []
  · by_cases hc : c = b <;> simp [hd, hc]
  · simp [hd]

theorem trimEnd_cons_of_ne {b c : Byte} (h : c ≠ b) (d : Bytes) : trimEnd b (c :: d) = c :: trimEnd b d := by
  rw [trimEnd_cons, if_neg fun hc => h hc.2]

@[simp] theorem trimEnd_trimEnd (b : Byte) (d : Bytes) : trimEnd b (trimEnd b d) = trimEnd b d :=
  List.rdropWhile_idempotent _ d

/-! ## `enc40` (R132) -/

@[simp] theorem enc40_nil : enc40 hw [] = 0 := rfl

@[simp] theorem enc40_cons (c : Byte) (u : Bytes) : enc40 hw (c :: u) = enc40 hw u * 40 + digit40 c := rfl

theorem enc40_lt (u : Bytes) : enc40 hw u < 40 ^ u.length := by
  induction u with
  | nil => decide
  | cons c u ih =>
    have := digit40_lt c
    rw [enc40_cons, List.length_cons, pow_succ]
    omega

/-- A text of at most 9 bytes is below the regular range's end (R131). -/
theorem enc40_lt_of_length_le {u : Bytes} {n : Nat} (h : u.length ≤ n) : enc40 hw u < 40 ^ n :=
  (enc40_lt u).trans_le (Nat.pow_le_pow_right (by decide) h)

/-- `enc40` as the sum of R132: digit i counts 40^i. -/
theorem enc40_eq_sum (u : Bytes) :
    enc40 hw u = ((List.range u.length).map fun i => digit40 (u.getD i 0) * 40 ^ i).sum := by
  induction u with
  | nil => rfl
  | cons c u ih =>
    have hshift : ∀ i, digit40 ((c :: u).getD (i + 1) 0) * 40 ^ (i + 1) = digit40 (u.getD i 0) * 40 ^ i * 40 := fun i => by
      rw [List.getD_cons_succ, pow_succ, Nat.mul_assoc]
    rw [enc40_cons, ih, List.length_cons, List.range_succ_eq_map, List.map_cons, List.sum_cons, List.map_map]
    simp only [Function.comp_def, Nat.succ_eq_add_one, hshift, List.sum_map_mul_right, List.getD_cons_zero, pow_zero,
      Nat.mul_one]
    exact Nat.add_comm _ _

/-- Trailing spaces are leading zero digits. -/
@[simp] theorem enc40_trimEnd (u : Bytes) : enc40 hw (trimEnd 0x20 u) = enc40 hw u := by
  induction u with
  | nil => rfl
  | cons c u ih =>
    rw [trimEnd_cons, enc40_cons, ← ih]
    split
    next h =>
      obtain ⟨hnil, rfl⟩ := h
      rw [hnil, enc40_nil, digit40_space]
    next => rfl

/-- The texts of value 0 are those of spaces alone. -/
theorem enc40_eq_zero_iff {u : Bytes} (hu : ∀ c ∈ u, inAlphabet c = true) : enc40 hw u = 0 ↔ trimEnd 0x20 u = [] := by
  refine ⟨fun h0 => ?_, fun hnil => by rw [← enc40_trimEnd, hnil, enc40_nil]⟩
  induction u with
  | nil => rfl
  | cons c u ih =>
    obtain ⟨hc, hrest⟩ := List.forall_mem_cons.1 hu
    rw [enc40_cons] at h0
    rw [trimEnd_cons, if_pos ⟨ih hrest (by omega), (digit40_eq_zero_iff hc).1 (by omega)⟩]

/-! ## `dec40` (R133) -/

theorem dec40_hw (m : Nat) : dec40 hw m = trimEnd 0x20 (digits40 9 m) := rfl

@[simp] theorem digits40_zero (fuel : Nat) : digits40 fuel 0 = [] := by cases fuel <;> rfl

/-- The digits of a number that is given by its last digit and the number of the others. -/
theorem digits40_succ (fuel n : Nat) {d : Nat} (hd : d < 40) :
    digits40 (fuel + 1) (n * 40 + d) = if n = 0 ∧ d = 0 then [] else a40 d :: digits40 fuel n := by
  have hmod : (n * 40 + d) % 40 = d := by omega
  have hdiv : (n * 40 + d) / 40 = n := by omega
  have hzero : n * 40 + d = 0 ↔ n = 0 ∧ d = 0 := by omega
  simp only [digits40, hmod, hdiv, hzero]

/-- The digits of a text's value are the text without its trailing spaces. -/
theorem digits40_enc40 {u : Bytes} {fuel : Nat} (hlen : u.length ≤ fuel) (hu : ∀ c ∈ u, inAlphabet c = true) :
    digits40 fuel (enc40 hw u) = trimEnd 0x20 u := by
  induction u generalizing fuel with
  | nil => simp
  | cons c u ih =>
    obtain ⟨hc, hrest⟩ := List.forall_mem_cons.1 hu
    obtain _ | fuel := fuel
    · simp at hlen
    · rw [enc40_cons, digits40_succ _ _ (digit40_lt c), ih (Nat.le_of_succ_le_succ hlen) hrest, a40_digit40 hc,
        trimEnd_cons]
      simp only [enc40_eq_zero_iff hrest, digit40_eq_zero_iff hc]

/-- pyM17 §8 property 1: `dec40` undoes `enc40`, up to trailing spaces. -/
theorem dec40_enc40 {u : Bytes} (hlen : u.length ≤ 9) (hu : ∀ c ∈ u, inAlphabet c = true) :
    dec40 hw (enc40 hw u) = trimEnd 0x20 u := by
  rw [dec40_hw, digits40_enc40 hlen hu, trimEnd_trimEnd]

theorem enc40_digits40 {fuel m : Nat} (h : m < 40 ^ fuel) : enc40 hw (digits40 fuel m) = m := by
  induction fuel generalizing m with
  | zero =>
    rw [pow_zero, Nat.lt_one_iff] at h
    rw [h, digits40_zero, enc40_nil]
  | succ fuel ih =>
    rw [pow_succ] at h
    rw [digits40]
    split
    next h0 => rw [h0, enc40_nil]
    next =>
      rw [enc40_cons, ih (by omega), digit40_a40 _ (by omega)]
      omega

/-- pyM17 §8 property 2: `enc40` undoes `dec40`. -/
theorem enc40_dec40 {n : Nat} (h : n < 40 ^ 9) : enc40 hw (dec40 hw n) = n := by
  rw [dec40_hw, enc40_trimEnd, enc40_digits40 h]

end Sys2Proof.Machine
end

section
/-! # The callsign codec, address by address (41_address.md R131, R134, R135)

`b40Encode` and `b40Text` on each address class, and that what the one accepts the other gives back (O26). -/

namespace Sys2Proof.Machine

/-! ## `b40Encode`: "@ALL", a text after `#`, any other text (R134) -/

theorem b40Encode_broadcastText (P : Params) : b40Encode P broadcastText = .ok (broadcastAddress, .broadcast) := rfl

theorem b40Encode_hash (P : Params) (rest : Bytes) :
    b40Encode P (0x23 :: rest)
      = if rest.all inAlphabet then .ok (regularEnd + enc40 P rest, .hash) else .error (.invalidInput .invalidChar) := by
  have hne : (0x23 :: rest : Bytes) ≠ broadcastText := fun h => absurd (List.cons.inj h).1 (by decide)
  unfold b40Encode
  exact if_neg hne

theorem b40Encode_plain (P : Params) {t : Bytes} (hall : t ≠ broadcastText) (hhash : t.head? ≠ some 0x23) :
    b40Encode P t
      = if t.all inAlphabet then .ok (enc40 P t, if enc40 P t = 0 then .null else .regular)
        else .error (.invalidInput .invalidChar) := by
  unfold b40Encode
  rw [if_neg hall]
  split
  next => exact absurd rfl hhash
  next => rfl

/-- Everything an accepted text can be. -/
theorem b40Encode_eq_ok {P : Params} {t : Bytes} {n : Nat} {cls : AddressClass} (h : b40Encode P t = .ok (n, cls)) :
    (t = broadcastText ∧ n = broadcastAddress ∧ cls = .broadcast)
    ∨ (∃ rest, t = 0x23 :: rest ∧ (∀ c ∈ rest, inAlphabet c = true) ∧ n = regularEnd + enc40 P rest ∧ cls = .hash)
    ∨ ((∀ c ∈ t, inAlphabet c = true) ∧ n = enc40 P t ∧ cls = if n = 0 then .null else .regular) := by
  by_cases hall : t = broadcastText
  · rw [hall, b40Encode_broadcastText] at h
    cases h
    exact .inl ⟨hall, rfl, rfl⟩
  by_cases hhash : t.head? = some 0x23
  · obtain ⟨rest, rfl⟩ := List.head?_eq_some_iff.1 hhash
    rw [b40Encode_hash] at h
    split at h
    next hrest =>
      cases h
      exact .inr (.inl ⟨rest, rfl, List.all_eq_true.1 hrest, rfl, rfl⟩)
    next => cases h
  · rw [b40Encode_plain P hall hhash] at h
    split at h
    next ht =>
      cases h
      exact .inr (.inr ⟨List.all_eq_true.1 ht, rfl, rfl⟩)
    next => cases h

/-! ## `b40Text`, range by range (R131, R135) -/

theorem b40Text_broadcast (P : Params) : b40Text P broadcastAddress = .ok (broadcastText, .broadcast) := rfl

theorem b40Text_reserved (P : Params) {n : Nat} (hlo : hashEnd ≤ n) (hhi : n < broadcastAddress) :
    b40Text P n = .error (.invalidInput .reservedRange) := by
  rw [b40Text, if_neg hhi.ne, if_pos hlo]

theorem b40Text_hash (P : Params) {n : Nat} (hlo : regularEnd ≤ n) (hhi : n < hashEnd) :
    b40Text P n = .ok (0x23 :: dec40 P (n - regularEnd), .hash) := by
  have hlt : n < broadcastAddress := hhi.trans (by decide)
  rw [b40Text, if_neg hlt.ne, if_neg hhi.not_ge, if_pos hlo]

theorem b40Text_null (P : Params) : b40Text P 0 = .ok ([], .null) := rfl

theorem b40Text_regular (P : Params) {n : Nat} (hlo : 0 < n) (hhi : n < regularEnd) :
    b40Text P n = .ok (dec40 P n, .regular) := by
  have hhash : n < hashEnd := hhi.trans (by decide)
  have hlt : n < broadcastAddress := hhash.trans (by decide)
  rw [b40Text, if_neg hlt.ne, if_neg hhash.not_ge, if_neg hhi.not_ge, if_neg hlo.ne']

/-- An address that has a text has 48 bits (R131). -/
theorem le_broadcastAddress_of_b40Text {P : Params} {n : Nat} {x : Bytes × AddressClass} (h : b40Text P n = .ok x) :
    n ≤ broadcastAddress := by
  by_contra hn
  have hlt : broadcastAddress < n := not_le.1 hn
  have hreserved : hashEnd ≤ n := le_trans (by decide) hlt.le
  rw [b40Text, if_neg hlt.ne', if_pos hreserved] at h
  cases h

/-! ## The round trip of the codec -/

/-- What `b40Encode` accepts has the text without its trailing spaces, and the same class (R133, R134, R135). -/
theorem b40Text_of_b40Encode {t : Bytes} {n : Nat} {cls : AddressClass} (hlen : t.length ≤ 9)
    (h : b40Encode hw t = .ok (n, cls)) : b40Text hw n = .ok (trimEnd 0x20 t, cls) := by
  obtain ⟨rfl, rfl, rfl⟩ | ⟨rest, rfl, hrest, rfl, rfl⟩ | ⟨ht, rfl, rfl⟩ := b40Encode_eq_ok h
  case inl => rfl
  case inr.inl =>
    have hshort : rest.length ≤ 8 := Nat.le_of_succ_le_succ hlen
    have hhash : regularEnd + enc40 hw rest < hashEnd := Nat.add_lt_add_left (enc40_lt_of_length_le hshort) _
    rw [b40Text_hash hw (Nat.le_add_right _ _) hhash, Nat.add_sub_cancel_left, dec40_enc40 (by omega) hrest,
      trimEnd_cons_of_ne (by decide)]
  case inr.inr =>
    by_cases h0 : enc40 hw t = 0
    · rw [if_pos h0, h0, b40Text_null, (enc40_eq_zero_iff ht).1 h0]
    · rw [if_neg h0, b40Text_regular hw (Nat.pos_of_ne_zero h0) (enc40_lt_of_length_le hlen), dec40_enc40 hlen ht]

/-- An accepted text of at most 9 bytes has a 48-bit address (R131). -/
theorem lt_of_b40Encode {t : Bytes} {n : Nat} {cls : AddressClass} (hlen : t.length ≤ 9)
    (h : b40Encode hw t = .ok (n, cls)) : n < 256 ^ 6 :=
  (le_broadcastAddress_of_b40Text (b40Text_of_b40Encode hlen h)).trans_lt (by decide)

end Sys2Proof.Machine
end

section
/-! # B40_ENC, B40_DEC and B40_DECB (41_address.md R134, R135, R136; O24, O25, O26)

Each command is its codec function with one tail of writes: what the function answers is what the command yields or
raises. -/

namespace Sys2Proof.Machine

theorem AddressClass.code_lt (cls : AddressClass) : cls.code < 2 ^ 32 := by cases cls <;> decide

/-! ## B40_ENC (R134) -/

section Encode

variable {s : State} {len : BitVec 16}

theorem b40Enc_tooLong (h : 9 < len.toNat) : OnlyRaises (.b40Enc len) s (.invalidInput .tooLong) :=
  .of_run (exec_eq_finish _ s) (if_pos h)

theorem b40Enc_raises {e : Err} (h : len.toNat ≤ 9) (he : b40Encode hw (s.ibytes 0 len.toNat) = .error e) :
    OnlyRaises (.b40Enc len) s e :=
  .of_run (exec_eq_finish (.b40Enc len) s) (by rw [commandRun, b40EncRun, if_neg (not_lt.2 h), he])

/-- An accepted text: the address to RES0, RES1 and OB[0..6), the class to RES2. -/
theorem b40Enc_yields {n : Nat} {cls : AddressClass} (h : len.toNat ≤ 9)
    (hok : b40Encode hw (s.ibytes 0 len.toNat) = .ok (n, cls)) :
    Yields (.b40Enc len) s none [0, 1, 2] 6 fun t =>
      ResAddr t 0 1 n ∧ ResIs t 2 cls.code ∧ ObHolds t 0 (beBytes 6 n) := by
  have hn : n < 2 ^ 64 := (lt_of_b40Encode (by simpa using h) hok).trans (by decide)
  have hrun : commandRun (.b40Enc len) s
      = (((s.setResAddr 0 1 n).setResNat 2 cls.code).obWrite 0 (beBytes 6 n)).ok := by
    rw [commandRun, b40EncRun, if_neg (not_lt.2 h), hok]
  refine Yields.of_run _ (hrun ▸ exec_eq_finish (.b40Enc len) s) rfl (HostSideKept.refl s) rfl ⟨rfl, rfl, rfl⟩
    (fun m hm => ?kept) (fun a ha => ?bytes)
    ⟨.of_ofNat hn (by simp) (by simp), .of_ofNat cls.code_lt (by simp), by simp⟩
  case kept =>
    obtain ⟨h0, h1, h2⟩ : m ≠ 0 ∧ m ≠ 1 ∧ m ≠ 2 := by simpa using hm
    simp [h0, h1, h2]
  case bytes => exact State.obWrite_byteAt_of_not _ 0 _ a (by rwa [beBytes_length])

end Encode

/-! ## B40_DEC and B40_DECB (R135, R136) -/

/-- What B40_DEC and B40_DECB yield for an address with a text: the text to OB, its length to RES0, the class to RES2, the
address to RES4 and RES5. -/
def YieldsText (i : Instr) (s : State) (n : Nat) (text : Bytes) (cls : AddressClass) : Prop :=
  Yields i s none [0, 2, 4, 5] text.length fun t =>
    ResIs t 0 text.length ∧ ResIs t 2 cls.code ∧ ResAddr t 4 5 n ∧ ObHolds t 0 text

section Decode

variable {i : Instr} {s : State} {n : Nat}

theorem b40Decode_raises {e : Err} (hi : commandRun i s = b40DecodeCommon hw n s) (he : b40Text hw n = .error e) :
    OnlyRaises i s e :=
  .of_run (exec_eq_finish i s) (by rw [hi, b40DecodeCommon, he])

theorem b40Decode_yields {text : Bytes} {cls : AddressClass} (hi : commandRun i s = b40DecodeCommon hw n s)
    (hok : b40Text hw n = .ok (text, cls)) : YieldsText i s n text cls := by
  have hn : n < 2 ^ 64 := (le_broadcastAddress_of_b40Text hok).trans_lt (by decide)
  have hlen : text.length < 2 ^ 32 := (b40Text_length_le hok).trans_lt (by decide)
  have hrun : commandRun i s
      = ((((s.obWrite 0 text).setResNat 0 text.length).setResNat 2 cls.code).setResAddr 4 5 n).ok := by
    rw [hi, b40DecodeCommon, hok]
  refine Yields.of_run _ (hrun ▸ exec_eq_finish i s) rfl (HostSideKept.refl s) rfl ⟨rfl, rfl, rfl⟩
    (fun m hm => ?kept) (fun a ha => State.obWrite_byteAt_of_not _ 0 _ a ha)
    ⟨.of_ofNat hlen (by simp), .of_ofNat cls.code_lt (by simp), .of_ofNat hn (by simp) (by simp), by simp⟩
  case kept =>
    obtain ⟨h0, h2, h4, h5⟩ : m ≠ 0 ∧ m ≠ 2 ∧ m ≠ 4 ∧ m ≠ 5 := by simpa using hm
    simp [h0, h2, h4, h5]

end Decode

/-! ## The round trip (O26) -/

/-- Six bytes of IBUF that copy the big-endian bytes of a 48-bit address are that address (R136). -/
theorem beNat_ibytes_of_copy {s t : State} {n : Nat} (hn : n < 256 ^ 6) (ht : ObHolds t 0 (beBytes 6 n))
    (hs : IbHolds s 0 [t.ob 0, t.ob 1, t.ob 2, t.ob 3, t.ob 4, t.ob 5]) : beNat (s.ibytes 0 6) = n := by
  have hbytes : s.ibytes 0 6 = beBytes 6 n := by
    refine List.ext_getElem (by simp) fun k hk hk' => ?_
    have hk6 : k < 6 := by simpa using hk
    rw [State.ibytes_getElem, hs k hk6, ← ht k hk', Nat.zero_add]
    interval_cases k <;> rfl
  rw [hbytes, beNat_beBytes, Nat.mod_eq_of_lt hn]

/-- B40_DECB of what B40_ENC wrote (R133, R134, R136). -/
theorem b40Decb_of_b40Enc {s t s' : State} {len : BitVec 16} (hlen : len.toNat ≤ 9)
    (ht : exec (.b40Enc len) s = .next t) (herror : t.error = none)
    (hcopy : IbHolds s' 0 [t.ob 0, t.ob 1, t.ob 2, t.ob 3, t.ob 4, t.ob 5]) :
    let text := trimEnd 0x20 (s.ibytes 0 len.toNat)
    Yields .b40Decb s' none [0, 2, 4, 5] text.length fun t' =>
      ObHolds t' 0 text ∧ ResIs t' 0 text.length ∧ t'.resReg 2 = t.resReg 2 ∧ t'.resReg 4 = t.resReg 0
      ∧ t'.resReg 5 = t.resReg 1 := by
  have htext : (s.ibytes 0 len.toNat).length ≤ 9 := by simpa using hlen
  cases hencode : b40Encode hw (s.ibytes 0 len.toNat) with
  | error e =>
    obtain ⟨hraised, -⟩ := (b40Enc_raises hlen hencode).of_next ht
    cases herror.symm.trans hraised
  | ok x =>
    obtain ⟨n, cls⟩ := x
    obtain ⟨-, ⟨hlo, hhi⟩, hclass, hob⟩ := (b40Enc_yields hlen hencode).of_next ht
    have hnum : beNat (s'.ibytes 0 6) = n := beNat_ibytes_of_copy (lt_of_b40Encode htext hencode) hob hcopy
    have hrun : commandRun .b40Decb s' = b40DecodeCommon hw n s' :=
      congrArg (b40DecodeCommon hw · s') hnum
    refine Yields.imp (b40Decode_yields hrun (b40Text_of_b40Encode htext hencode)) ?_
    rintro t' ⟨hlength, hclass', ⟨hlo', hhi'⟩, hob'⟩
    exact ⟨hob', hlength, BitVec.eq_of_toNat_eq (hclass'.trans hclass.symm),
      BitVec.eq_of_toNat_eq (hlo'.trans hlo.symm), BitVec.eq_of_toNat_eq (hhi'.trans hhi.symm)⟩

/-- Settles O26: the command round trip from that of the codec, and the two inverse laws of `enc40` and `dec40`. -/
theorem callsignRoundTrip : Obligations.CallsignRoundTrip :=
  ⟨fun _ _ _ _ hlen ht herror hcopy => b40Decb_of_b40Enc hlen ht herror hcopy, fun _ hlen hu => dec40_enc40 hlen hu,
    fun _ hn => enc40_dec40 hn⟩

/-! ## The encoder and the alphabet (O24) -/

/-- The ranges in which no byte of the alphabet lies (R130). -/
theorem toNat_of_mem_alphabet40 : ∀ c ∈ alphabet40,
    ¬ (c.toNat < 0x20 ∨ (0x20 < c.toNat ∧ c.toNat < 0x2D) ∨ (0x39 < c.toNat ∧ c.toNat < 0x41) ∨ 0x5A < c.toNat) := by
  decide

theorem not_all_inAlphabet {u : Bytes} (h : ∃ c ∈ u, inAlphabet c = false) : ¬ u.all inAlphabet = true := by
  simpa using h

/-- Settles O24: each kind of text by `b40Encode` on it, the value of R132 as a sum. -/
theorem b40EncCommandAndAlphabet : Obligations.B40EncCommandAndAlphabet := by
  unfold Obligations.B40EncCommandAndAlphabet
  refine ⟨⟨by decide, by decide, by decide, by decide, by decide, by decide,
    fun c hc => (idx40_eq_none_iff c).2 fun hmem => toNat_of_mem_alphabet40 c hmem hc⟩, fun s len => ?_⟩
  simp only [← enc40_eq_sum]
  refine ⟨b40Enc_tooLong, fun hlen => ⟨fun hall => ?broadcast, fun rest hrest => ?hash, fun hall hhash => ?plain⟩⟩
  case broadcast => exact b40Enc_yields hlen (cls := .broadcast) (hall ▸ b40Encode_broadcastText hw)
  case hash =>
    have hencode := hrest ▸ b40Encode_hash hw rest
    refine ⟨fun hin => ?_, fun hout => ?_⟩
    · rw [if_pos (List.all_eq_true.2 hin)] at hencode
      exact b40Enc_yields hlen hencode
    · rw [if_neg (not_all_inAlphabet hout)] at hencode
      exact b40Enc_raises hlen hencode
  case plain =>
    have hencode := b40Encode_plain hw hall hhash
    refine ⟨fun hin => ?_, fun hout => ?_⟩
    · rw [if_pos (List.all_eq_true.2 hin)] at hencode
      have hyields := b40Enc_yields hlen hencode
      rwa [apply_ite AddressClass.code] at hyields
    · rw [if_neg (not_all_inAlphabet hout)] at hencode
      exact b40Enc_raises hlen hencode

/-! ## The decoders (O25) -/

/-- The two decoding commands, class by class (R135): `b40Text` in each range of addresses. -/
theorem b40Decode_classes {i : Instr} {s : State} {n : Nat} (hi : commandRun i s = b40DecodeCommon hw n s) :
    (n = broadcastAddress → YieldsText i s n broadcastText .broadcast)
    ∧ (hashEnd ≤ n → n < broadcastAddress → OnlyRaises i s (.invalidInput .reservedRange))
    ∧ (regularEnd ≤ n → n < hashEnd → YieldsText i s n (0x23 :: dec40 hw (n - regularEnd)) .hash)
    ∧ (n = 0 → YieldsText i s n [] .null)
    ∧ (0 < n → n < regularEnd → YieldsText i s n (dec40 hw n) .regular) :=
  ⟨fun h => b40Decode_yields hi (h ▸ b40Text_broadcast hw),
    fun hlo hhi => b40Decode_raises hi (b40Text_reserved hw hlo hhi),
    fun hlo hhi => b40Decode_yields hi (b40Text_hash hw hlo hhi),
    fun h => b40Decode_yields hi (h ▸ b40Text_null hw),
    fun hlo hhi => b40Decode_yields hi (b40Text_regular hw hlo hhi)⟩

/-- Settles O25: both commands are `b40DecodeCommon`, B40_DEC after its check of ARG1. -/
theorem b40DecCommands : Obligations.B40DecCommands := by
  unfold Obligations.B40DecCommands
  intro s
  refine ⟨fun hbig => ?outOfRange, fun hfits => ?dec, b40Decode_classes rfl⟩
  case outOfRange => exact .of_run (exec_eq_finish .b40Dec s) (if_pos ((State.argHigh_ne_zero_iff s 1 16).2 hbig))
  case dec =>
    have hcheck : ¬ s.argHigh 1 16 ≠ 0 := mt (State.argHigh_ne_zero_iff s 1 16).1 (not_le.2 hfits)
    refine b40Decode_classes ?_
    rw [← State.argAddr_of_lt hfits]
    exact if_neg hcheck

end Sys2Proof.Machine
end

section
/-! # The CRC register (42_crc.md R150; O22)

The register shifts left by one for each bit, and adds the polynomial when the bit that leaves it differs from the bit
that arrives. So a register that is fed its own bits shifts them all out. -/

namespace Sys2Proof.Machine

/-- The bits of a big-endian number, the most significant first (00_scope.md R8, R9). -/
theorem bits_beBytes (n v : Nat) :
    bits (beBytes n v) = (List.range (8 * n)).map fun j => v.testBit (8 * n - 1 - j) := by
  induction n with
  | zero => rfl
  | succ n ih =>
    rw [beBytes, bits_cons, ih, show 8 * (n + 1) = 8 + 8 * n by omega, List.range_add, List.map_append, List.map_map]
    congr 1
    · refine List.map_congr_left fun j hj => ?_
      have hj8 : j < 8 := List.mem_range.1 hj
      rw [BitVec.getLsbD_ofNat, show 256 ^ n = 2 ^ (8 * n) from (pow_mul 2 8 n).symm, Nat.testBit_div_two_pow,
        show 8 + 8 * n - 1 - j = 7 - j + 8 * n by omega, decide_eq_true (by omega), Bool.true_and]
    · exact List.map_congr_left fun j _ => congrArg v.testBit (by dsimp only; omega)

theorem crc16_append (A B : Bytes) : crc16 (A ++ B) = (bits B).foldl crcBit (crc16 A) := by
  rw [crc16, bits_append, List.foldl_append, crc16]

/-- A bit equal to the one that leaves the register only shifts it. -/
theorem crcBit_eq_shift {r : BitVec 16} {b : Bool} (h : r.getLsbD 15 = b) : crcBit r b = r <<< 1 := by
  rw [crcBit, h, Bool.xor_self]
  rfl

/-- A register that is fed its own top n bits has shifted them out. -/
theorem foldl_crcBit_own_bits (r : BitVec 16) {n : Nat} (hn : n ≤ 16) :
    ((List.range n).map fun j => r.getLsbD (15 - j)).foldl crcBit r = r <<< n := by
  induction n with
  | zero => exact (BitVec.shiftLeft_zero r).symm
  | succ n ih =>
    have hout : (r <<< n).getLsbD 15 = r.getLsbD (15 - n) := by
      rw [BitVec.getLsbD_shiftLeft, decide_eq_true (by omega), decide_eq_false (by omega)]
      rfl
    rw [List.range_succ, List.map_append, List.foldl_append, ih (by omega), List.map_singleton, List.foldl_cons,
      List.foldl_nil, crcBit_eq_shift hout, BitVec.shiftLeft_add]

/-- The source's vector "123456789" (42_crc.md R150), bit by bit. -/
theorem crc16_digits : crc16 [0x31, 0x32, 0x33, 0x34, 0x35, 0x36, 0x37, 0x38, 0x39] = 0x772B := by
  simp [crc16, bits, crcBit, List.range_succ]

/-- The CRC of a sequence followed by its own CRC is 0 (42_crc.md R151). -/
theorem crc16_append_own_crc (B : Bytes) : crc16 (B ++ beBytes 2 (crc16 B).toNat) = 0 := by
  rw [crc16_append, bits_beBytes]
  exact (foldl_crcBit_own_bits (crc16 B) le_rfl).trans (BitVec.shiftLeft_eq_zero le_rfl)

end Sys2Proof.Machine
end

section
/-! # CRC16 and CRC16_CHK (42_crc.md R151, R152; O22, O23) -/

namespace Sys2Proof.Machine

/-- A result register that was given a shorter value. -/
theorem ResIs.of_setWidth {t : State} {m : Fin 8} {w : Nat} {v : BitVec w} (hw : w ≤ 32)
    (h : t.resReg m = v.setWidth 32) : ResIs t m v.toNat := by
  rw [ResIs, h, BitVec.toNat_setWidth_of_le hw]

/-! ## CRC16 (R151) -/

theorem crc16_yields (s : State) {len : BitVec 16} (h : len.toNat ≤ 1024) :
    Yields (.crc16 len) s none [0] 2 fun t =>
      ResIs t 0 (crc16 (s.ibytes 0 len.toNat)).toNat
      ∧ ObHolds t 0 (beBytes 2 (crc16 (s.ibytes 0 len.toNat)).toNat) := by
  have hrun : commandRun (.crc16 len) s
      = ((s.setRes 0 ((crc16 (s.ibytes 0 len.toNat)).setWidth 32)).obWrite 0
          (beBytes 2 (crc16 (s.ibytes 0 len.toNat)).toNat)).ok :=
    if_neg (not_lt.2 h)
  refine Yields.of_run _ (hrun ▸ exec_eq_finish (.crc16 len) s) rfl (HostSideKept.refl s) rfl ⟨rfl, rfl, rfl⟩
    (fun m hm => ?kept) (fun a ha => ?bytes) ⟨.of_setWidth (by decide) (by simp), by simp⟩
  case kept =>
    have hm0 : m ≠ 0 := by simpa using hm
    simp [hm0]
  case bytes => exact State.obWrite_byteAt_of_not _ 0 _ a (by rwa [beBytes_length])

/-- Settles O22: the run of the command, and the register that is fed its own bits. -/
theorem crc16Command : Obligations.Crc16Command :=
  ⟨fun s _ h => crc16_yields s h, fun s len h => .of_run (exec_eq_finish (.crc16 len) s) (if_pos h),
    crc16_append_own_crc, by decide, by decide, crc16_digits⟩

/-! ## CRC16_CHK (R152) -/

theorem crc16Chk_badLength (s : State) {len : BitVec 16} (h : len.toNat < 2 ∨ 1024 < len.toNat) :
    OnlyRaises (.crc16Chk len) s (.invalidInput .badLength) :=
  .of_run (exec_eq_finish (.crc16Chk len) s) (if_pos h)

/-- Both CRCs are written, whatever their comparison says. -/
theorem crc16Chk_yields (s : State) {len : BitVec 16} (hlo : 2 ≤ len.toNat) (hhi : len.toNat ≤ 1024) :
    Yields (.crc16Chk len) s
      (if (crc16 (s.ibytes 0 (len.toNat - 2))).toNat = beNat (s.ibytes (len.toNat - 2) len.toNat) then none
        else some .crcMismatch) [0, 1] 0 fun t =>
      ResIs t 0 (crc16 (s.ibytes 0 (len.toNat - 2))).toNat
      ∧ ResIs t 1 (beNat (s.ibytes (len.toNat - 2) len.toNat)) := by
  have hlen : ¬ (len.toNat < 2 ∨ 1024 < len.toNat) := by omega
  have hrun : commandRun (.crc16Chk len) s
      = ((s.setRes 0 ((crc16 (s.ibytes 0 (len.toNat - 2))).setWidth 32)).setResNat 1
          (beNat (s.ibytes (len.toNat - 2) len.toNat))).raiseIf
          (if (crc16 (s.ibytes 0 (len.toNat - 2))).toNat ≠ beNat (s.ibytes (len.toNat - 2) len.toNat)
            then some .crcMismatch else none) :=
    if_neg hlen
  have htrailing : beNat (s.ibytes (len.toNat - 2) len.toNat) < 2 ^ 32 := by
    refine (beNat_lt _).trans_le ?_
    rw [State.ibytes_length, Nat.sub_sub_self hlo]
    decide
  refine Yields.of_run _ (hrun ▸ exec_eq_finish (.crc16Chk len) s) (ite_not ..) (HostSideKept.refl s) rfl
    ⟨rfl, rfl, rfl⟩ (fun m hm => ?kept) (fun _ _ => rfl)
    ⟨.of_setWidth (by decide) (by simp), .of_ofNat htrailing (by simp)⟩
  case kept =>
    obtain ⟨h0, h1⟩ : m ≠ 0 ∧ m ≠ 1 := by simpa using hm
    simp [h0, h1]

/-- Settles O23: the run of the command within the length bounds, and its check of them. -/
theorem crc16ChkCommand : Obligations.Crc16ChkCommand := fun s _ =>
  ⟨fun hlo hhi => crc16Chk_yields s hlo hhi, fun h => crc16Chk_badLength s h⟩

end Sys2Proof.Machine
end

section
/-! # Commands from argument registers to result registers (10_state.md R21, R22)

An argument field that holds the whole register, and what a run yields that writes nothing but results. -/

namespace Sys2Proof.Machine

/-- Where ARGn fits in w bits, its w-bit field is the whole register (10_state.md R21). -/
theorem State.argField_toNat {s : State} {n : Fin 8} {w : Nat} (h : (s.argReg n).toNat < 2 ^ w) :
    (s.argField n w).toNat = (s.argReg n).toNat := by
  rw [State.argField, BitVec.toNat_setWidth, Nat.mod_eq_of_lt h]

theorem State.not_argHigh_of_lt {s : State} {n : Fin 8} {lo : Nat} (h : (s.argReg n).toNat < 2 ^ lo) :
    ¬ s.argHigh n lo ≠ 0 :=
  mt (s.argHigh_ne_zero_iff n lo).1 (not_le.2 h)

/-- A run that ends without an exception and has written result registers only. -/
theorem Yields.of_results {i : Instr} {s t : State} {w : List (Fin 8)} {post : State → Prop}
    (hrun : commandRun i s = t.ok) (honly : t = { s with res := t.res }) (hkept : ResKept s t w)
    (hpost : post (t.complete none)) : Yields i s none w 0 post := by
  generalize t.res = r at honly
  subst honly
  exact Yields.of_run (State.ok { s with res := r }) (hrun ▸ exec_eq_finish i s) rfl (HostSideKept.refl s) rfl
    ⟨rfl, rfl, rfl⟩ hkept (fun _ _ => rfl) hpost

end Sys2Proof.Machine
end

section
/-! # TYPE values as numbers (43_type.md R160 to R162, R169)

What packing, unpacking, detection and the META tag of a TYPE value are in arithmetic. -/

namespace Sys2Proof.Machine

/-! ## Packing -/

/-- A field placed above the bits in use is added to them. -/
theorem toNat_or_shiftLeft {w k : Nat} {low high : BitVec w} (hlow : low.toNat < 2 ^ k)
    (hhigh : high.toNat * 2 ^ k < 2 ^ w) : (low ||| high <<< k).toNat = low.toNat + high.toNat * 2 ^ k := by
  rw [BitVec.toNat_or, BitVec.toNat_shiftLeft, Nat.shiftLeft_eq, Nat.mod_eq_of_lt hhigh, Nat.or_comm,
    Nat.mul_comm, ← Nat.two_pow_add_eq_or_of_lt hlow, Nat.add_comm]

/-- The v2 layout: SP, DT, ET, ES, CAN from bit 0 upward (R160). -/
theorem packV2_toNat {sp dt et es can : Word} (hsp : sp.toNat ≤ 1) (hdt : dt.toNat ≤ 3) (het : et.toNat ≤ 3)
    (hes : es.toNat ≤ 3) (hcan : can.toNat ≤ 15) :
    (sp ||| dt <<< 1 ||| et <<< 3 ||| es <<< 5 ||| can <<< 7).toNat
      = sp.toNat + 2 * dt.toNat + 8 * et.toNat + 32 * es.toNat + 128 * can.toNat := by
  have toDt := toNat_or_shiftLeft (k := 1) (low := sp) (high := dt) (by omega) (by omega)
  have toEt := toNat_or_shiftLeft (k := 3) (low := sp ||| dt <<< 1) (high := et) (by omega) (by omega)
  have toEs := toNat_or_shiftLeft (k := 5) (low := sp ||| dt <<< 1 ||| et <<< 3) (high := es) (by omega) (by omega)
  rw [toNat_or_shiftLeft (k := 7) (by omega) (by omega)]
  omega

/-- The v3 layout: PAYLOAD, ENC, SIGNED, META, CAN from bit 15 downward (R161). -/
theorem packV3_toNat {pay enc sig mt can : Word} (hpay : pay.toNat ≤ 15) (henc : enc.toNat ≤ 7) (hsig : sig.toNat ≤ 1)
    (hmt : mt.toNat ≤ 15) (hcan : can.toNat ≤ 15) :
    (pay <<< 12 ||| enc <<< 9 ||| sig <<< 8 ||| mt <<< 4 ||| can).toNat
      = 4096 * pay.toNat + 512 * enc.toNat + 256 * sig.toNat + 16 * mt.toNat + can.toNat := by
  have upward : pay <<< 12 ||| enc <<< 9 ||| sig <<< 8 ||| mt <<< 4 ||| can
      = can ||| mt <<< 4 ||| sig <<< 8 ||| enc <<< 9 ||| pay <<< 12 := by
    ac_rfl
  have toMt := toNat_or_shiftLeft (k := 4) (low := can) (high := mt) (by omega) (by omega)
  have toSig := toNat_or_shiftLeft (k := 8) (low := can ||| mt <<< 4) (high := sig) (by omega) (by omega)
  have toEnc := toNat_or_shiftLeft (k := 9) (low := can ||| mt <<< 4 ||| sig <<< 8) (high := enc) (by omega) (by omega)
  rw [upward, toNat_or_shiftLeft (k := 12) (by omega) (by omega)]
  omega

/-! ## Unpacking -/

/-- A field of a TYPE value in a result register, as a number. -/
theorem typeBits_toNat (t : BitVec 16) (lo : Nat) {w : Nat} (hw : w ≤ 32) :
    (typeBits t lo w).toNat = t.toNat / 2 ^ lo % 2 ^ w := by
  rw [typeBits, BitVec.toNat_setWidth_of_le hw, BitVec.extractLsb'_toNat, Nat.shiftRight_eq_div_pow]

/-! ## Detection and the META tag -/

/-- The PAYLOAD nibble is all that is above bit 11 (R161). -/
theorem typeNibble_mod (t : BitVec 16) : t.toNat / 4096 % 16 = t.toNat / 4096 := by
  have := t.isLt
  omega

theorem detect_code (t : BitVec 16) : (detect t).code = versionCode t.toNat := by
  rw [detect_eq, versionCode, typeNibble_mod]
  split <;> rfl

theorem versionCode_lt (n : Nat) : versionCode n < 2 ^ 32 := by
  rw [versionCode]
  split <;> decide

/-- Under v3 the META field is the tag, 5 and above unknown (R169). -/
theorem metatag_code_v3 {t : BitVec 16} (h : detect t = .v3) :
    (metatag t).code = if t.toNat / 16 % 16 ≤ 4 then t.toNat / 16 % 16 else 15 := by
  have field : (t.extractLsb' 4 4).toNat = t.toNat / 16 % 16 := by
    rw [BitVec.extractLsb'_toNat, Nat.shiftRight_eq_div_pow]
  simp only [metatag, h, field]
  rcases t.toNat / 16 % 16 with _ | _ | _ | _ | _ | n <;> simp [MetaTag.code]

/-- Under v2 EncryptionType says which tag, with EncryptionSubType where nothing is encrypted (R169). -/
theorem metatag_code_v2 {t : BitVec 16} (h : detect t = .v2) :
    (metatag t).code = if t.toNat / 8 % 4 = 0 then [3, 1, 2, 15].getD (t.toNat / 32 % 4) 15
      else if t.toNat / 8 % 4 = 1 ∨ t.toNat / 8 % 4 = 2 then 5 else 15 := by
  have encType : (t.extractLsb' 3 2).toNat = t.toNat / 8 % 4 := by
    rw [BitVec.extractLsb'_toNat, Nat.shiftRight_eq_div_pow]
  have encSubType : (t.extractLsb' 5 2).toNat = t.toNat / 32 % 4 := by
    rw [BitVec.extractLsb'_toNat, Nat.shiftRight_eq_div_pow]
  simp only [metatag, h, encType, encSubType]
  rcases t.toNat / 8 % 4 with _ | _ | _ | n
  case zero => rcases t.toNat / 32 % 4 with _ | _ | _ | _ | n <;> simp [MetaTag.code]
  all_goals simp [MetaTag.code]

theorem metatag_code (t : BitVec 16) : (metatag t).code = metaCode t.toNat := by
  rw [metaCode, typeNibble_mod]
  split
  case isTrue h => exact metatag_code_v2 ((detect_eq t).trans (if_pos h))
  case isFalse h => exact metatag_code_v3 ((detect_eq t).trans (if_neg h))

theorem metatag_code_lt (t : BitVec 16) : (metatag t).code < 2 ^ 32 := by
  cases metatag t <;> decide

end Sys2Proof.Machine
end

section
/-! # The TYPE commands (43_type.md R164 to R168; O27, O28) -/

namespace Sys2Proof.Machine

/-! ## The builders (R164, R166) -/

theorem typeBv2_yields {s : State} (hsp : (s.argReg 0).toNat ≤ 1) (hdt : (s.argReg 1).toNat ≤ 3)
    (het : (s.argReg 2).toNat ≤ 3) (hes : (s.argReg 3).toNat ≤ 3) (hcan : (s.argReg 4).toNat ≤ 15) :
    Yields .typeBv2 s none [0] 0 fun t =>
      ResIs t 0 ((s.argReg 0).toNat + 2 * (s.argReg 1).toNat + 8 * (s.argReg 2).toNat + 32 * (s.argReg 3).toNat
        + 128 * (s.argReg 4).toNat) := by
  refine Yields.of_results (if_neg (by omega)) rfl (fun m => by simp +contextual) ?_
  rw [ResIs, ← packV2_toNat hsp hdt het hes hcan]
  simp

theorem typeBv3_yields {s : State} (hpay : (s.argReg 0).toNat ≤ 15) (henc : (s.argReg 1).toNat ≤ 7)
    (hsig : (s.argReg 2).toNat ≤ 1) (hmt : (s.argReg 3).toNat ≤ 15) (hcan : (s.argReg 4).toNat ≤ 15) :
    Yields .typeBv3 s none [0] 0 fun t =>
      ResIs t 0 (4096 * (s.argReg 0).toNat + 512 * (s.argReg 1).toNat + 256 * (s.argReg 2).toNat
        + 16 * (s.argReg 3).toNat + (s.argReg 4).toNat) := by
  refine Yields.of_results (if_neg (by omega)) rfl (fun m => by simp +contextual) ?_
  rw [ResIs, ← packV3_toNat hpay henc hsig hmt hcan]
  simp

/-! ## The commands that read a TYPE value from ARG0 (R165, R167, R168) -/

/-- The check that TYPE_PV2, TYPE_PV3 and TYPE_DET share. -/
theorem typeArg_raises {i : Instr} {s : State} {r : Run}
    (hi : commandRun i s = if s.argHigh 0 16 ≠ 0 then s.raise (.invalidInput .fieldRange) else r)
    (h : 2 ^ 16 ≤ (s.argReg 0).toNat) : OnlyRaises i s (.invalidInput .fieldRange) :=
  .of_run (exec_eq_finish i s) (hi.trans (if_pos ((State.argHigh_ne_zero_iff s 0 16).2 h)))

section Parse

variable {s : State} (h : (s.argReg 0).toNat < 2 ^ 16)

include h

theorem typePv2_yields :
    Yields .typePv2 s none [0, 1, 2, 3, 4, 5, 6] 0 fun t =>
      ResIs t 0 ((s.argReg 0).toNat % 2) ∧ ResIs t 1 ((s.argReg 0).toNat / 2 % 4)
      ∧ ResIs t 2 ((s.argReg 0).toNat / 8 % 4) ∧ ResIs t 3 ((s.argReg 0).toNat / 32 % 4)
      ∧ ResIs t 4 ((s.argReg 0).toNat / 128 % 16) ∧ ResIs t 5 ((s.argReg 0).toNat / 2048)
      ∧ ResIs t 6 (versionCode (s.argReg 0).toNat) := by
  have ht := State.argField_toNat h
  have hreserved : (s.argReg 0).toNat / 2048 < 32 := by omega
  refine Yields.of_results (if_neg (State.not_argHigh_of_lt h)) rfl (fun m => by simp +contextual) ?_
  simpa [ResIs, typeBits_toNat, detect_code, ht] using And.intro hreserved (versionCode_lt (s.argReg 0).toNat)

theorem typePv3_yields :
    Yields .typePv3 s none [0, 1, 2, 3, 4, 6] 0 fun t =>
      ResIs t 0 ((s.argReg 0).toNat / 4096) ∧ ResIs t 1 ((s.argReg 0).toNat / 512 % 8)
      ∧ ResIs t 2 ((s.argReg 0).toNat / 256 % 2) ∧ ResIs t 3 ((s.argReg 0).toNat / 16 % 16)
      ∧ ResIs t 4 ((s.argReg 0).toNat % 16) ∧ ResIs t 6 (versionCode (s.argReg 0).toNat) := by
  have ht := State.argField_toNat h
  have hpayload : (s.argReg 0).toNat / 4096 < 16 := by omega
  refine Yields.of_results (if_neg (State.not_argHigh_of_lt h)) rfl (fun m => by simp +contextual) ?_
  simpa [ResIs, typeBits_toNat, detect_code, ht] using And.intro hpayload (versionCode_lt (s.argReg 0).toNat)

theorem typeDet_yields :
    Yields .typeDet s none [0, 1] 0 fun t =>
      ResIs t 0 (versionCode (s.argReg 0).toNat) ∧ ResIs t 1 (metaCode (s.argReg 0).toNat) := by
  have ht := State.argField_toNat h
  rw [← ht, ← metatag_code]
  exact Yields.of_results (if_neg (State.not_argHigh_of_lt h)) rfl (fun m => by simp +contextual)
    ⟨.of_ofNat (versionCode_lt _) (by simp [detect_code]), .of_ofNat (metatag_code_lt _) (by simp)⟩

end Parse

/-! ## The obligations -/

/-- Settles O27: the packed sum, the fields by division, and the check of each command. -/
theorem typeV2Commands : Obligations.TypeV2Commands := fun s =>
  ⟨typeBv2_yields, fun hwide => .of_run (exec_eq_finish .typeBv2 s) (if_pos hwide), typePv2_yields,
    typeArg_raises rfl⟩

/-- Settles O28: as for v2, with the version and the META tag by `detect_code` and `metatag_code`. -/
theorem typeV3AndDetectCommands : Obligations.TypeV3AndDetectCommands :=
  ⟨fun s => ⟨typeBv3_yields, fun hwide => .of_run (exec_eq_finish .typeBv3 s) (if_pos hwide), typePv3_yields,
      typeArg_raises rfl⟩,
    fun _ => ⟨typeDet_yields, typeArg_raises rfl⟩⟩

end Sys2Proof.Machine
end

section
/-! # Hamming weight and distance (00_scope.md R11) -/

namespace Sys2Proof.Machine

/-! ## Weight -/

@[simp] theorem popcount_zero (w : Nat) : popcount (0 : BitVec w) = 0 := by
  simp [popcount]

theorem popcount_le {w : Nat} (v : BitVec w) : popcount v ≤ w :=
  List.countP_le_length.trans_eq List.length_range

theorem popcount_eq_zero_iff {w : Nat} {v : BitVec w} : popcount v = 0 ↔ v = 0 := by
  constructor
  · intro h
    refine BitVec.eq_of_getLsbD_eq fun i hi => ?_
    simpa using List.countP_eq_zero.1 h i (List.mem_range.2 hi)
  · rintro rfl
    exact popcount_zero w

/-- The 1 bits counted from the top down, the wire order (44_golay.md R181). -/
theorem popcount_eq_countP_msbFirst {w : Nat} (v : BitVec w) :
    popcount v = (List.range w).countP fun k => v.getLsbD (w - 1 - k) := by
  have downward : (List.range w).reverse = (List.range w).map fun k => w - 1 - k := by
    refine List.ext_getElem (by simp) fun k _ _ => by simp
  rw [popcount, ← List.countP_reverse, downward, List.countP_map]
  rfl

/-- A sum has at most the 1 bits of its terms. -/
theorem popcount_xor_le {w : Nat} (a b : BitVec w) : popcount (a ^^^ b) ≤ popcount a + popcount b := by
  unfold popcount
  induction List.range w with
  | nil => simp
  | cons i l ih =>
    simp only [List.countP_cons, BitVec.getLsbD_xor]
    cases a.getLsbD i <;> cases b.getLsbD i <;> simp <;> omega

/-! ## Distance -/

theorem hamming_comm {w : Nat} (a b : BitVec w) : hamming a b = hamming b a := by
  rw [hamming, BitVec.xor_comm, hamming]

theorem hamming_triangle {w : Nat} (a b c : BitVec w) : hamming a c ≤ hamming a b + hamming b c := by
  have through : a ^^^ c = (a ^^^ b) ^^^ (b ^^^ c) := by
    rw [BitVec.xor_assoc, ← BitVec.xor_assoc b b c, BitVec.xor_self, BitVec.zero_xor]
  rw [hamming, through]
  exact popcount_xor_le ..

/-- A word is as far from itself with an error pattern added as the pattern has 1 bits. -/
@[simp] theorem hamming_xor_self {w : Nat} (a e : BitVec w) : hamming a (a ^^^ e) = popcount e := by
  rw [hamming, ← BitVec.xor_assoc, BitVec.xor_self, BitVec.zero_xor]

end Sys2Proof.Machine
end

section
/-! # The Golay code (44_golay.md R180)

The code is linear, so its minimum distance is its minimum weight. A codeword of weight at most 7 has a half of weight
at most 3. A light data half selects at most three rows of the table, and these selections are few. A light parity half
selects rows of the transposed table in the same way, because the table is an orthogonal matrix. -/

namespace Sys2Proof.Machine

/-! ## Linearity -/

/-- What holds of 0 and is kept by every inversion of one bit holds of every word. -/
theorem bitVec_xor_induction {w : Nat} {motive : BitVec w → Prop} (zero : motive 0)
    (invert : ∀ v i, i < w → motive v → motive (v ^^^ BitVec.twoPow w i)) (v : BitVec w) : motive v := by
  have below : ∀ n ≤ w, ∀ v : BitVec w, (∀ i, n ≤ i → v.getLsbD i = false) → motive v := by
    intro n
    induction n with
    | zero =>
      intro _ v hv
      obtain rfl : v = 0 := BitVec.eq_of_getLsbD_eq fun i _ => by simp [hv i]
      exact zero
    | succ n ih =>
      intro hn v hv
      cases hbit : v.getLsbD n with
      | false =>
        refine ih (by omega) v fun i hi => ?_
        rcases hi.eq_or_lt with rfl | hlt
        · exact hbit
        · exact hv i hlt
      | true =>
        have back : v = (v ^^^ BitVec.twoPow w n) ^^^ BitVec.twoPow w n := by
          rw [BitVec.xor_assoc, BitVec.xor_self, BitVec.xor_zero]
        rw [back]
        refine invert _ n hn (ih (by omega) _ fun i hi => ?_)
        rw [BitVec.getLsbD_xor, BitVec.getLsbD_twoPow]
        rcases hi.eq_or_lt with rfl | hlt
        · simpa [hbit] using hn
        · simp [hv i hlt, hlt.ne]
  exact below w le_rfl v fun i hi => BitVec.getLsbD_of_ge v i hi

/-- The sum of the table entries selected by d, from p on, over the positions of a list. -/
theorem foldl_selected_xor {w : Nat} (table : Nat → BitVec w) (d d' : BitVec w) (l : List Nat) (p p' : BitVec w) :
    l.foldl (fun p i => if (d ^^^ d').getLsbD i then p ^^^ table i else p) (p ^^^ p')
      = l.foldl (fun p i => if d.getLsbD i then p ^^^ table i else p) p
        ^^^ l.foldl (fun p i => if d'.getLsbD i then p ^^^ table i else p) p' := by
  induction l generalizing p p' with
  | nil => rfl
  | cons i l ih =>
    simp only [List.foldl_cons]
    rw [← ih]
    congr 1
    rw [BitVec.getLsbD_xor]
    cases d.getLsbD i <;> cases d'.getLsbD i
    case false.false => rfl
    case false.true => exact BitVec.xor_assoc ..
    case true.false => exact (by ac_rfl : p ^^^ p' ^^^ table i = p ^^^ table i ^^^ p')
    case true.true =>
      have cancel : p ^^^ table i ^^^ (p' ^^^ table i) = p ^^^ p' ^^^ (table i ^^^ table i) := by ac_rfl
      simpa using cancel.symm

theorem golayPar_xor (P : Params) (d d' : BitVec 12) : golayPar P (d ^^^ d') = golayPar P d ^^^ golayPar P d' :=
  foldl_selected_xor (fun i => P.golayParity.getD i 0) d d' (List.range 12) 0 0

theorem golay_xor (P : Params) (d d' : BitVec 12) : golay P (d ^^^ d') = golay P d ^^^ golay P d' := by
  rw [golay, golayPar_xor, ← BitVec.xor_append, golay, golay]

theorem golay_weight_eq (P : Params) (d : BitVec 12) : popcount (golay P d) = popcount (golayPar P d) + popcount d :=
  popcount_append ..

/-! ## The transposed table -/

/-- The parameters of this hardware with the rows and columns of GOLAY_PARITY exchanged. -/
def transposedHw : Params :=
  { hw with golayParity := [0xC75, 0x49F, 0x93E, 0x6E3, 0xDC6, 0xF13, 0xAB9, 0x1ED, 0x3DA, 0x7B4, 0xF68, 0xA4F] }

/-- The table is an orthogonal matrix: its transposed one leads from the parity back to the data. -/
theorem golayPar_transposed (d : BitVec 12) : golayPar transposedHw (golayPar hw d) = d := by
  have units : ∀ i < 12, golayPar transposedHw (golayPar hw (BitVec.twoPow 12 i)) = BitVec.twoPow 12 i := by decide
  induction d using bitVec_xor_induction with
  | zero => rfl
  | invert d i hi ih => rw [golayPar_xor, golayPar_xor, ih, units i hi]

/-! ## Minimum weight and distance -/

/-- The sum of the table entries at some positions. -/
def rowSum (P : Params) (rows : List Nat) : BitVec 12 := rows.foldl (fun p i => p ^^^ P.golayParity.getD i 0) 0

theorem golayPar_eq_rowSum (P : Params) (d : BitVec 12) : golayPar P d = rowSum P ((List.range 12).filter d.getLsbD) :=
  List.foldl_filter.symm

/-- Every sum of one to three table entries has 1 bits enough for a codeword of weight 8. -/
def FewRowsHeavy (P : Params) : Prop :=
  ∀ n < 4, n ≠ 0 → ∀ rows ∈ (List.range 12).sublistsLen n, 8 ≤ popcount (rowSum P rows) + n

theorem fewRowsHeavy_hw : FewRowsHeavy hw := by
  unfold FewRowsHeavy
  decide +kernel

theorem fewRowsHeavy_transposedHw : FewRowsHeavy transposedHw := by
  unfold FewRowsHeavy
  decide +kernel

theorem FewRowsHeavy.weight {P : Params} (h : FewRowsHeavy P) {d : BitVec 12} (hd : d ≠ 0) (hlight : popcount d < 4) :
    8 ≤ popcount (golayPar P d) + popcount d := by
  rw [golayPar_eq_rowSum]
  exact h _ hlight (mt popcount_eq_zero_iff.1 hd) _
    (List.mem_sublistsLen.2 ⟨List.filter_sublist, List.countP_eq_length_filter.symm⟩)

/-- Every codeword but 0 has at least 8 bits set. -/
theorem golay_weight {d : BitVec 12} (hd : d ≠ 0) : 8 ≤ popcount (golay hw d) := by
  rw [golay_weight_eq]
  by_cases hdata : popcount d < 4
  · exact fewRowsHeavy_hw.weight hd hdata
  by_cases hparity : popcount (golayPar hw d) < 4
  · have hne : golayPar hw d ≠ 0 := fun h0 => hd (by rw [← golayPar_transposed d, h0]; rfl)
    have := fewRowsHeavy_transposedHw.weight hne hparity
    rw [golayPar_transposed] at this
    omega
  · omega

/-- Two codewords differ in at least 8 bits (44_golay.md R180). -/
theorem golay_distance {d d' : BitVec 12} (h : d ≠ d') : 8 ≤ hamming (golay hw d) (golay hw d') := by
  rw [hamming, ← golay_xor]
  exact golay_weight (mt BitVec.xor_eq_zero_iff.1 h)

/-- Codewords whose distances from one word add up to less than 8 are the same codeword. -/
theorem golay_unique {d d' : BitVec 12} (r : BitVec 24) (h : hamming (golay hw d) r + hamming (golay hw d') r < 8) :
    d = d' := by
  by_contra hne
  have htriangle := hamming_triangle (golay hw d) r (golay hw d')
  rw [hamming_comm r] at htriangle
  have := golay_distance hne
  omega

end Sys2Proof.Machine
end

section
/-! # GOLAY_ENC and GOLAY_DEC (44_golay.md R182, R186, R187; O29, O30) -/

namespace Sys2Proof.Machine

/-! ## GOLAY_ENC (R186) -/

theorem golay_toNat (P : Params) (d : BitVec 12) : (golay P d).toNat = d.toNat * 2 ^ 12 + (golayPar P d).toNat :=
  toNat_fieldAbove d (golayPar P d)

/-- The data is the high half of the codeword (R180). -/
theorem golay_toNat_div (P : Params) (d : BitVec 12) : (golay P d).toNat / 2 ^ 12 = d.toNat := by
  have := (golayPar P d).isLt
  rw [golay_toNat]
  omega

theorem State.argField_eq_ofNat (s : State) (n : Fin 8) (w : Nat) :
    s.argField n w = BitVec.ofNat w (s.argReg n).toNat := (BitVec.ofNat_toNat w (s.argReg n)).symm

theorem golayEnc_yields {s : State} (h : (s.argReg 0).toNat < 2 ^ 12) :
    Yields .golayEnc s none [0] 0 fun t => ResIs t 0 (golay hw (BitVec.ofNat 12 (s.argReg 0).toNat)).toNat := by
  rw [← s.argField_eq_ofNat]
  exact Yields.of_results (if_neg (State.not_argHigh_of_lt h)) rfl (fun m => by simp +contextual)
    (.of_setWidth (by decide) (by simp))

/-- Settles O29: the run of the command, linearity, and the minimum weight. -/
theorem golayEncCommand : Obligations.GolayEncCommand :=
  ⟨fun s => ⟨golayEnc_yields, fun hwide =>
      .of_run (exec_eq_finish .golayEnc s) (if_pos ((s.argHigh_ne_zero_iff 0 12).2 hwide))⟩,
    golay_xor hw, by decide, golay_toNat_div hw, fun _ _ => golay_distance, by decide, by decide⟩

/-! ## GOLAY_DEC (R182, R187) -/

/-- A word within distance 3 of a codeword decodes to it. -/
theorem golayHard_of_hamming_le {d : BitVec 12} {r : BitVec 24} (h : hamming (golay hw d) r ≤ 3) :
    golayHard hw r = some { data := d, metric := hamming (golay hw d) r, code := golay hw d } := by
  cases hr : golayHard hw r with
  | none => exact absurd (golayHard_none.1 hr d) (not_lt.2 h)
  | some g =>
    obtain ⟨hcode, hmetric, hle⟩ := golayHard_some hr
    obtain rfl : g.data = d := golay_unique r (by omega)
    rw [← hmetric, ← hcode]

/-- A word at distance 4 from a codeword is within distance 3 of none. -/
theorem hamming_gt_of_four {d : BitVec 12} {r : BitVec 24} (h : hamming (golay hw d) r = 4) (d' : BitVec 12) :
    3 < hamming (golay hw d') r := by
  by_contra hnear
  obtain rfl : d' = d := golay_unique r (by omega)
  omega

theorem golayDec_fieldRange {s : State} (h : 2 ^ 24 ≤ (s.argReg 0).toNat) :
    OnlyRaises .golayDec s (.invalidInput .fieldRange) := by
  refine .of_run (exec_eq_finish .golayDec s) ?_
  show golayDecRun hw s = _
  rw [golayDecRun, if_pos ((s.argHigh_ne_zero_iff 0 24).2 h)]

section Decode

variable {s : State} {r : BitVec 24} (hr : s.argReg 0 = r.setWidth 32)

include hr

theorem golayDec_argHigh : ¬ s.argHigh 0 24 ≠ 0 :=
  State.not_argHigh_of_lt (by rw [hr, BitVec.toNat_setWidth_of_le (by decide)]; exact r.isLt)

theorem golayDec_argField : s.argField 0 24 = r := by
  rw [State.argField, hr, BitVec.setWidth_setWidth_of_le _ (by decide), BitVec.setWidth_eq]

theorem golayDec_yields {g : GolayResult} (hg : golayHard hw r = some g) :
    Yields .golayDec s none [0, 1, 2] 0 fun t =>
      ResIs t 0 g.data.toNat ∧ ResIs t 1 g.metric ∧ ResIs t 2 g.code.toNat := by
  obtain ⟨-, hmetric, hle⟩ := golayHard_some hg
  refine Yields.of_results
    (t := ((s.setRes 0 (g.data.setWidth 32)).setResNat 1 g.metric).setRes 2 (g.code.setWidth 32)) ?run rfl
    (fun m => by simp +contextual)
    ⟨.of_setWidth (by decide) (by simp), .of_ofNat (by omega) (by simp), .of_setWidth (by decide) (by simp)⟩
  case run =>
    show golayDecRun hw s = _
    rw [golayDecRun, if_neg (golayDec_argHigh hr), golayDec_argField hr, hg]

theorem golayDec_raises (hfar : ∀ d, 3 < hamming (golay hw d) r) : OnlyRaises .golayDec s .decodeFailure := by
  refine .of_run (exec_eq_finish .golayDec s) ?_
  show golayDecRun hw s = _
  rw [golayDecRun, if_neg (golayDec_argHigh hr), golayDec_argField hr, golayHard_none.2 hfar]

end Decode

/-- Settles O30: the codeword within distance 3 is the only one, and none is within distance 3 of a word at distance 4
from one. -/
theorem golayDecCorrects : Obligations.GolayDecCorrects := by
  refine ⟨fun s d err hweight hr => ?corrects, fun s r hr hfar => golayDec_raises hr hfar,
    fun s d err hweight hr => golayDec_raises hr (hamming_gt_of_four (d := d) (by simpa using hweight)),
    fun s => golayDec_fieldRange⟩
  case corrects =>
    have hg := golayHard_of_hamming_le (d := d) (r := golay hw d ^^^ err) (by simpa using hweight)
    rw [hamming_xor_self] at hg
    exact golayDec_yields hr hg

end Sys2Proof.Machine
end

section
/-! # Soft decoding of a codeword (44_golay.md R183, R188; O31)

What the search and the hard slicing give for any soft bytes, and for the soft image of a received word. -/

namespace Sys2Proof.Machine

/-! ## Any soft bytes -/

theorem dist_le (v : Byte) (b : Bool) : dist v b ≤ 255 := by
  have := v.isLt
  unfold dist
  split <;> omega

theorem golayMetric_le (S : Bytes) (c : BitVec 24) : golayMetric S c ≤ 6120 := by
  refine (List.sum_le_card_nsmul _ 255 fun m hm => ?_).trans_eq (by simp)
  obtain ⟨j, -, rfl⟩ := List.mem_map.1 hm
  exact dist_le ..

/-- A lower data word has the lower codeword (log 12). -/
theorem golay_toNat_lt {P : Params} {d d' : BitVec 12} (h : d.toNat < d'.toNat) :
    (golay P d).toNat < (golay P d').toNat := by
  have := (golayPar P d).isLt
  rw [golay_toNat, golay_toNat]
  omega

/-- The codeword of least metric, the lowest among equals (R183). -/
theorem golaySoft_least (P : Params) (S : Bytes) :
    ∃ d, golaySoft P S = { data := d, metric := golayMetric S (golay P d), code := golay P d }
      ∧ ∀ d', golayMetric S (golay P d) < golayMetric S (golay P d')
          ∨ (golayMetric S (golay P d) = golayMetric S (golay P d') ∧ (golay P d).toNat ≤ (golay P d').toNat) := by
  obtain ⟨k, hk, hsoft, hmin, hfirst⟩ := golaySoft_spec P S
  refine ⟨BitVec.ofNat 12 k, hsoft, fun d' => ?_⟩
  have hd' : BitVec.ofNat 12 d'.toNat = d' := by rw [BitVec.ofNat_toNat, BitVec.setWidth_eq]
  have hle := hmin d'.toNat d'.isLt
  have hlt := hfirst d'.toNat
  simp only [golayCandidate_metric, hd'] at hle hlt
  rcases lt_trichotomy d'.toNat k with h | h | h
  · exact .inl (hlt h)
  · subst h
    exact .inr ⟨by rw [hd'], by rw [hd']⟩
  · refine hle.lt_or_eq.imp id fun heq => ⟨heq, (golay_toNat_lt ?_).le⟩
    rwa [BitVec.toNat_ofNat, Nat.mod_eq_of_lt hk]

theorem slicedWord_getLsbD (P : Params) (S : Bytes) {k : Nat} (hk : k < 24) :
    (slicedWord P S).getLsbD (23 - k) = hardSlice P (S.getD k 0) := by
  have hdigit := bitsToNat_testBit ((List.range 24).map fun k => hardSlice P (S.getD k 0)) k (by simpa using hk)
  rw [List.length_map, List.length_range] at hdigit
  rw [slicedWord, BitVec.getLsbD_ofNat, hdigit, decide_eq_true (by omega), Bool.true_and]
  simp [hk]

/-- The distance from the hard-sliced word, position by position (R188). -/
theorem hamming_slicedWord (P : Params) (S : Bytes) (c : BitVec 24) :
    hamming (slicedWord P S) c
      = (List.range 24).countP fun k => hardSlice P (S.getD k 0) != c.getLsbD (23 - k) := by
  rw [hamming, popcount_eq_countP_msbFirst]
  refine List.countP_congr fun k hk => ?_
  rw [BitVec.getLsbD_xor, slicedWord_getLsbD P S (List.mem_range.1 hk)]

/-! ## The soft image of a received word -/

/-- The 24 soft bytes are the soft image of a word, its top bit first (00_scope.md R10). -/
def SoftWord (S : Bytes) (r : BitVec 24) : Prop := ∀ j < 24, S.getD j 0 = softBit (r.getLsbD (23 - j))

theorem slicedWord_softWord {S : Bytes} {r : BitVec 24} (h : SoftWord S r) : slicedWord hw S = r := by
  refine BitVec.eq_of_getLsbD_eq fun i hi => ?_
  have hbit := slicedWord_getLsbD hw S (k := 23 - i) (by omega)
  rw [h _ (by omega), show 23 - (23 - i) = i by omega] at hbit
  rw [hbit]
  cases r.getLsbD i <;> rfl

/-- The metric of a codeword is 255 for each position where it differs. -/
theorem golayMetric_softWord {S : Bytes} {r : BitVec 24} (h : SoftWord S r) (c : BitVec 24) :
    golayMetric S c = 255 * hamming c r := by
  have position : ∀ j ∈ List.range 24,
      dist (S.getD j 0) (c.getLsbD (23 - j)) = if (c ^^^ r).getLsbD (23 - j) then 255 else 0 := by
    intro j hj
    rw [h j (List.mem_range.1 hj), dist_softBit, BitVec.getLsbD_xor]
    cases r.getLsbD (23 - j) <;> cases c.getLsbD (23 - j) <;> rfl
  rw [golayMetric, List.map_congr_left position, hamming, popcount_eq_countP_msbFirst]
  induction List.range 24 with
  | nil => rfl
  | cons j l ih =>
    rw [List.map_cons, List.sum_cons, ih, List.countP_cons, mul_add, add_comm]
    split <;> rfl

/-- The soft image of a word within distance 3 of a codeword decodes to that codeword. -/
theorem golaySoft_of_hamming_le {S : Bytes} {r : BitVec 24} {d : BitVec 12} (hS : SoftWord S r)
    (h : hamming (golay hw d) r ≤ 3) :
    golaySoft hw S = { data := d, metric := 255 * hamming (golay hw d) r, code := golay hw d } := by
  obtain ⟨d₀, hsoft, hleast⟩ := golaySoft_least hw S
  simp only [golayMetric_softWord hS] at hsoft hleast
  have hle := hleast d
  obtain rfl : d₀ = d := golay_unique r (by omega)
  exact hsoft

/-! ## GOLAY_SDEC -/

theorem golaySdec_yields {s : State} {d : BitVec 12}
    (hd : golaySoft hw (s.ibytes 0 24)
      = { data := d, metric := golayMetric (s.ibytes 0 24) (golay hw d), code := golay hw d }) :
    Yields .golaySdec s none [0, 1, 2, 3] 0 fun t =>
      ResIs t 0 d.toNat ∧ ResIs t 1 (golayMetric (s.ibytes 0 24) (golay hw d)) ∧ ResIs t 2 (golay hw d).toNat
      ∧ ResIs t 3 (hamming (slicedWord hw (s.ibytes 0 24)) (golay hw d)) := by
  have hmetric := golayMetric_le (s.ibytes 0 24) (golay hw d)
  have hdist : hamming (slicedWord hw (s.ibytes 0 24)) (golay hw d) ≤ 24 := popcount_le _
  refine Yields.of_results
    (t := (((s.setRes 0 (d.setWidth 32)).setResNat 1 (golayMetric (s.ibytes 0 24) (golay hw d))).setRes 2
      ((golay hw d).setWidth 32)).setResNat 3 (hamming (slicedWord hw (s.ibytes 0 24)) (golay hw d)))
    ?run rfl (fun m => by simp +contextual)
    ⟨.of_setWidth (by decide) (by simp), .of_ofNat (by omega) (by simp), .of_setWidth (by decide) (by simp),
      .of_ofNat (by omega) (by simp)⟩
  case run =>
    show golaySdecRun hw s = _
    simp only [golaySdecRun, hd]

/-- Settles O31: the search finds the least metric and the lowest codeword, and the command writes what it found. -/
theorem golaySdecCommand : Obligations.GolaySdecCommand := by
  intro s S
  obtain ⟨d, hsoft, hleast⟩ := golaySoft_least hw S
  have hdist : hamming (slicedWord hw S) (golay hw d)
      = (List.range 24).countP fun k => (128 ≤ (s.ib k).toNat) != (golay hw d).getLsbD (23 - k) := by
    rw [hamming_slicedWord]
    refine List.countP_congr fun k hk => ?_
    rw [State.ibytes_getD s 0 24 k (List.mem_range.1 hk), Nat.zero_add]
    rfl
  refine ⟨d, ?_, golayMetric_le _ _, hleast⟩
  rw [← hdist]
  exact golaySdec_yields hsoft

end Sys2Proof.Machine
end

section
/-! # LICH_ENC and LICH_SDEC (44_golay.md R184, R185, R189, R190; O32, O33) -/

namespace Sys2Proof.Machine

/-! ## LICH_ENC (R184, R189) -/

/-- Element k of block j of a list of equally long blocks. -/
theorem flatMap_range_getD {α : Type} (f : Nat → List α) {L : Nat} (hL : ∀ j, (f j).length = L) (z : α)
    {n j k : Nat} (hj : j < n) (hk : k < L) : ((List.range n).flatMap f).getD (L * j + k) z = (f j).getD k z := by
  induction n generalizing f j with
  | zero => exact absurd hj (Nat.not_lt_zero j)
  | succ n ih =>
    rw [List.range_succ_eq_map, List.flatMap_cons, List.flatMap_map]
    cases j with
    | zero => rw [Nat.mul_zero, Nat.zero_add, List.getD_append _ _ _ _ (hL 0 ▸ hk)]
    | succ j =>
      have hpast : L * (j + 1) + k = (f 0).length + (L * j + k) := by rw [hL]; ring
      rw [List.getD_append_right _ _ _ _ (by omega), hpast, Nat.add_sub_cancel_left]
      exact ih (fun i => f (i + 1)) (fun i => hL (i + 1)) (by omega)

theorem wireBits_getD {w : Nat} (c : BitVec w) {k : Nat} (hk : k < w) :
    (wireBits c).getD k false = c.getLsbD (w - 1 - k) := by
  simp [wireBits, hk]

/-- The codewords of a unit one after the other, each MSB-first (R184). -/
theorem lichEncode_getD (P : Params) (u : BitVec 48) {j k : Nat} (hj : j < 4) (hk : k < 24) :
    (lichEncode P u).getD (24 * j + k) false = (golay P (unitWord u j)).getLsbD (23 - k) := by
  rw [lichEncode, flatMap_range_getD _ (fun i => wireBits_length _) false hj hk, wireBits_getD _ hk]

theorem unitWord_ofNat (n : Nat) {j : Nat} (hj : j < 4) :
    unitWord (BitVec.ofNat 48 n) j = BitVec.ofNat 12 (n / 2 ^ (36 - 12 * j)) := by
  refine BitVec.eq_of_getLsbD_eq fun i hi => ?_
  rw [unitWord, BitVec.getLsbD_extractLsb', BitVec.getLsbD_ofNat, BitVec.getLsbD_ofNat, Nat.testBit_div_two_pow,
    decide_eq_true hi, decide_eq_true (show 36 - 12 * j + i < 48 by omega), Bool.true_and, Bool.true_and, Bool.true_and,
    Nat.add_comm]

theorem lichEnc_yields (s : State) :
    Yields .lichEnc s none [] 12 fun t => ObHolds t 0 (pack (lichEncode hw (BitVec.ofNat 48 (beNat (s.ibytes 0 6))))) :=
  Yields.of_run _ (exec_eq_finish .lichEnc s) rfl (HostSideKept.refl s) rfl ⟨rfl, rfl, rfl⟩ (fun _ _ => rfl)
    (fun a ha => State.obWrite_byteAt_of_not _ 0 _ a (by simpa using ha))
    ((obHolds_complete ..).2 (.write s 0 _))

/-! ## LICH_SDEC (R185, R190) -/

/-- Four words one below the other, as a number. -/
theorem toNat_fourWords (a b c d : BitVec 12) :
    (a ++ (b ++ (c ++ d))).toNat
      = a.toNat * 2 ^ 36 + (b.toNat * 2 ^ 24 + (c.toNat * 2 ^ 12 + d.toNat)) := by
  rw [toNat_fieldAbove, toNat_fieldAbove, toNat_fieldAbove]

theorem fourWords_assoc (a b c d : BitVec 12) : (a ++ b ++ c ++ d : BitVec 48) = a ++ (b ++ (c ++ d)) := by
  refine BitVec.eq_of_toNat_eq ?_
  rw [toNat_fourWords]
  refine (toNat_fieldAbove (a ++ b ++ c) d).trans ?_
  rw [toNat_fieldAbove, toNat_fieldAbove]
  ring

/-- A unit is its four words (R184). -/
theorem unit_eq_words (u : BitVec 48) :
    (unitWord u 0 ++ unitWord u 1 ++ unitWord u 2 ++ unitWord u 3 : BitVec 48) = u := by
  refine BitVec.eq_of_toNat_eq ?_
  rw [fourWords_assoc, toNat_fourWords]
  simp only [unitWord, BitVec.extractLsb'_toNat, Nat.shiftRight_eq_div_pow]
  have := u.isLt
  omega

/-- The soft decode of word j of the LICH unit in IB[0..96). -/
def State.lichResult (s : State) (j : Nat) : GolayResult := golaySoft hw (s.ibytes (24 * j) (24 * j + 24))

/-- The distance of that word's codeword from its hard-sliced input. -/
def State.lichDist (s : State) (j : Nat) : Nat :=
  hamming (slicedWord hw (s.ibytes (24 * j) (24 * j + 24))) (s.lichResult j).code

/-- The unit of the four data words. -/
def State.lichDecodedUnit (s : State) : BitVec 48 :=
  (s.lichResult 0).data ++ (s.lichResult 1).data ++ (s.lichResult 2).data ++ (s.lichResult 3).data

/-- The summed metric. -/
def State.lichDecodedMetric (s : State) : Nat :=
  (s.lichResult 0).metric + (s.lichResult 1).metric + (s.lichResult 2).metric + (s.lichResult 3).metric

/-- The worst distance. -/
def State.lichWorstDist (s : State) : Nat :=
  max (max (s.lichDist 0) (s.lichDist 1)) (max (s.lichDist 2) (s.lichDist 3))

/-- The bad flag: a word too far from its hard-sliced input, or a counter above 5. -/
def State.lichBadFlag (s : State) : Nat :=
  if 3 < s.lichWorstDist ∨ 5 < s.lichDecodedUnit.toNat / 2 ^ 45 then 1 else 0

/-- The counter is the top three bits of the unit (48_stream_packet_ip.md R281). -/
theorem ctrOf_hw_toNat (u : BitVec 48) : (ctrOf hw u).toNat = u.toNat / 2 ^ 45 := by
  refine (BitVec.extractLsb'_toNat 45 3 u).trans ?_
  have := u.isLt
  rw [Nat.shiftRight_eq_div_pow]
  omega

/-- `lich_sdec` of IB[0..96), word by word. -/
theorem lichSoftDecode_ibytes (s : State) :
    lichSoftDecode hw (s.ibytes 0 96)
      = { unit := s.lichDecodedUnit, ctr := ctrOf hw s.lichDecodedUnit, metric := s.lichDecodedMetric
          bad := s.lichWorstDist > 3 || (ctrOf hw s.lichDecodedUnit).toNat > 5, dmax := s.lichWorstDist } := by
  have word : ∀ j < 4, slice (s.ibytes 0 96) (24 * j) (24 * j + 24) = s.ibytes (24 * j) (24 * j + 24) := fun j hj => by
    rw [State.slice_ibytes s 0 96 _ _ (by omega), Nat.zero_add, Nat.zero_add]
  have worst : max (s.lichDist 0) (max (s.lichDist 1) (max (s.lichDist 2) (s.lichDist 3))) = s.lichWorstDist :=
    (max_assoc ..).symm
  simp only [lichSoftDecode, word 0 (by decide), word 1 (by decide), word 2 (by decide), word 3 (by decide)]
  rw [← worst, State.lichDecodedUnit, fourWords_assoc]
  rfl

theorem State.lichDecodedMetric_le (s : State) : s.lichDecodedMetric ≤ 24480 := by
  have bound : ∀ j, (s.lichResult j).metric ≤ 6120 := fun j => by
    obtain ⟨d, hd, -⟩ := golaySoft_least hw (s.ibytes (24 * j) (24 * j + 24))
    rw [State.lichResult, hd]
    exact golayMetric_le ..
  exact Nat.add_le_add (Nat.add_le_add (Nat.add_le_add (bound 0) (bound 1)) (bound 2)) (bound 3)

theorem State.lichWorstDist_le (s : State) : s.lichWorstDist ≤ 24 :=
  max_le (max_le (popcount_le _) (popcount_le _)) (max_le (popcount_le _) (popcount_le _))

theorem State.lichBadFlag_eq (s : State) :
    (decide (s.lichWorstDist > 3) || decide ((ctrOf hw s.lichDecodedUnit).toNat > 5)).toNat = s.lichBadFlag := by
  rw [ctrOf_hw_toNat, ← Bool.decide_or, State.lichBadFlag]
  split
  case isTrue h => rw [decide_eq_true h, Bool.toNat_true]
  case isFalse h => rw [decide_eq_false h, Bool.toNat_false]

theorem State.lichBadFlag_le (s : State) : s.lichBadFlag ≤ 1 := by
  rw [← State.lichBadFlag_eq]
  exact Bool.toNat_le _

theorem lichSdec_yields (s : State) :
    Yields .lichSdec s none [0, 1, 2, 3] 6 fun t =>
      ObHolds t 0 (beBytes 6 s.lichDecodedUnit.toNat) ∧ ResIs t 0 (s.lichDecodedUnit.toNat / 2 ^ 45)
      ∧ ResIs t 1 s.lichDecodedMetric ∧ ResIs t 2 s.lichBadFlag ∧ ResIs t 3 s.lichWorstDist := by
  have hmetric := s.lichDecodedMetric_le
  have hbad := s.lichBadFlag_le
  have hworst := s.lichWorstDist_le
  have hrun : commandRun .lichSdec s
      = (((((s.obWrite 0 (beBytes 6 s.lichDecodedUnit.toNat)).setRes 0
          ((ctrOf hw s.lichDecodedUnit).setWidth 32)).setResNat 1 s.lichDecodedMetric).setResNat 2
          s.lichBadFlag).setResNat 3 s.lichWorstDist).ok := by
    show lichSdecRun hw s = _
    simp only [lichSdecRun, lichSoftDecode_ibytes, State.lichBadFlag_eq]
  rw [← ctrOf_hw_toNat]
  refine Yields.of_run _ (hrun ▸ exec_eq_finish .lichSdec s) rfl (HostSideKept.refl s) rfl ⟨rfl, rfl, rfl⟩
    (fun m hm => ?kept) (fun a ha => ?bytes)
    ⟨by simp, .of_setWidth (by decide) (by simp), .of_ofNat (by omega) (by simp), .of_ofNat (by omega) (by simp),
      .of_ofNat (by omega) (by simp)⟩
  case kept =>
    obtain ⟨h0, h1, h2, h3⟩ : m ≠ 0 ∧ m ≠ 1 ∧ m ≠ 2 ∧ m ≠ 3 := by simpa using hm
    simp [h0, h1, h2, h3]
  case bytes => exact State.obWrite_byteAt_of_not _ 0 _ a (by rwa [beBytes_length])

/-- Settles O32: the run of each command, word by word. -/
theorem lichCodecCommands : Obligations.LichCodecCommands := by
  refine ⟨fun s => (lichEnc_yields s).imp fun t ht j hj k hk => ?enc, fun s => ?sdec⟩
  case enc =>
    rw [ht.obBit_pack (by rw [lichEncode_length]; omega), lichEncode_getD hw _ hj hk, unitWord_ofNat _ hj]
  case sdec =>
    -- `r` is identified with `s.lichResult` before its fields are compared, or the kernel runs the search
    intro r
    have hr : r = s.lichResult := rfl
    clear_value r
    subst hr
    exact lichSdec_yields s

/-! ## The round trip -/

section Received

variable {s : State} {j : Nat} {d : BitVec 12} {e : BitVec 24}
  (hword : SoftWord (s.ibytes (24 * j) (24 * j + 24)) (golay hw d ^^^ e)) (hweight : popcount e ≤ 3)

include hword hweight

theorem lichResult_of_received :
    s.lichResult j = { data := d, metric := 255 * popcount e, code := golay hw d } := by
  have hsoft := golaySoft_of_hamming_le hword (d := d) (by simpa using hweight)
  rwa [hamming_xor_self] at hsoft

theorem lichDist_of_received : s.lichDist j = popcount e := by
  rw [State.lichDist, slicedWord_softWord hword, lichResult_of_received hword hweight, hamming_comm, hamming_xor_self]

end Received

/-- Settles O33: each received word is within distance 3 of its codeword, so its soft decode is that codeword. -/
theorem lichCodecCorrects : Obligations.LichCodecCorrects := by
  intro s u err hweight hib
  have word : ∀ j < 4, SoftWord (s.ibytes (24 * j) (24 * j + 24)) (golay hw (unitWord u j) ^^^ err j) :=
    fun j hj k hk => by rw [State.ibytes_getD _ _ _ _ (by omega), hib j hj k hk]
  have result := fun j (hj : j < 4) => lichResult_of_received (word j hj) (hweight j hj)
  have dist := fun j (hj : j < 4) => lichDist_of_received (word j hj) (hweight j hj)
  have hunit : s.lichDecodedUnit = u := by
    rw [State.lichDecodedUnit, result 0 (by decide), result 1 (by decide), result 2 (by decide), result 3 (by decide)]
    exact unit_eq_words u
  have hmetric : s.lichDecodedMetric
      = 255 * (popcount (err 0) + popcount (err 1) + popcount (err 2) + popcount (err 3)) := by
    rw [State.lichDecodedMetric, result 0 (by decide), result 1 (by decide), result 2 (by decide),
      result 3 (by decide)]
    ring
  have hworst : s.lichWorstDist
      = max (max (popcount (err 0)) (popcount (err 1))) (max (popcount (err 2)) (popcount (err 3))) := by
    rw [State.lichWorstDist, dist 0 (by decide), dist 1 (by decide), dist 2 (by decide), dist 3 (by decide)]
  have hnear : ¬ 3 < s.lichWorstDist := by
    rw [hworst, not_lt]
    exact max_le (max_le (hweight 0 (by decide)) (hweight 1 (by decide)))
      (max_le (hweight 2 (by decide)) (hweight 3 (by decide)))
  have hbad : s.lichBadFlag = if 5 < u.toNat / 2 ^ 45 then 1 else 0 := by
    simp only [State.lichBadFlag, hnear, hunit, false_or]
  have hyields := lichSdec_yields s
  rwa [hunit, hmetric, hbad, hworst] at hyields

end Sys2Proof.Machine
end

section
/-! # The coded bits of the convolutional code (45_conv_viterbi.md R200, R201; O34)

The encoder's state is the last four input bits, so a coded bit is a sum of input bits up to four steps back. -/

namespace Sys2Proof.Machine

/-! ## The encoder's state (R200) -/

@[simp] theorem convNext_newest (st : BitVec 4) (b : Bool) : (convNext st b).getLsbD 0 = b := by
  revert st b
  decide

/-- Every other bit of the state moves one place up. -/
theorem convNext_older (st : BitVec 4) (b : Bool) {i : Nat} (hi : i < 3) :
    (convNext st b).getLsbD (i + 1) = st.getLsbD i := by
  have moves : ∀ (st : BitVec 4) (b : Bool), ∀ i < 3, (convNext st b).getLsbD (i + 1) = st.getLsbD i := by decide
  exact moves st b i hi

/-- The taps of G1 and G2: the newest bit and three of the state. -/
theorem convOut_eq (st : BitVec 4) (b : Bool) :
    convOut st b = (b ^^ st.getLsbD 2 ^^ st.getLsbD 3, b ^^ st.getLsbD 0 ^^ st.getLsbD 1 ^^ st.getLsbD 3) := by
  revert st b
  decide

/-! ## The bit k steps back -/

/-- The input bit k steps before step t of the encoder that starts in state `st`: a bit of `u`, or one of the state. -/
def convTap (st : BitVec 4) (u : Bits) (t k : Nat) : Bool :=
  if k ≤ t then u.getD (t - k) false else st.getLsbD (k - t - 1)

/-- One step moves the newest bit from the input to the state. -/
theorem convTap_convNext (st : BitVec 4) (b : Bool) (u : Bits) (t : Nat) {k : Nat} (hk : k ≤ 4) :
    convTap (convNext st b) u t k = convTap st (b :: u) (t + 1) k := by
  unfold convTap
  rcases Nat.lt_trichotomy k (t + 1) with h | rfl | h
  · rw [if_pos (by omega), if_pos (by omega), show t + 1 - k = t - k + 1 by omega, List.getD_cons_succ]
  · rw [if_neg (by omega), if_pos le_rfl, Nat.add_sub_cancel_left, Nat.sub_self, Nat.sub_self, convNext_newest,
      List.getD_cons_zero]
  · rw [if_neg (by omega), if_neg (by omega), show k - t - 1 = k - (t + 1) - 1 + 1 by omega,
      convNext_older _ _ (by omega)]

/-- The coded bits of step t, from any state on. -/
theorem convFrom_getD (st : BitVec 4) (u : Bits) {t : Nat} (ht : t < u.length) :
    (convFrom st u).getD (2 * t) false = (convTap st u t 0 ^^ convTap st u t 3 ^^ convTap st u t 4)
    ∧ (convFrom st u).getD (2 * t + 1) false
      = (convTap st u t 0 ^^ convTap st u t 1 ^^ convTap st u t 2 ^^ convTap st u t 4) := by
  induction u generalizing st t with
  | nil => exact absurd ht (Nat.not_lt_zero t)
  | cons b u ih =>
    cases t with
    | zero =>
      rw [convFrom, convOut_eq]
      exact ⟨rfl, rfl⟩
    | succ t =>
      have step := ih (convNext st b) (t := t) (by simpa using ht)
      simp only [convTap_convNext, Nat.reduceLeDiff] at step
      exact step

/-! ## The code of a bit string -/

/-- Four zeros after a string do not change what is read past its end. -/
theorem getD_append_flush (u : Bits) (i : Nat) : (u ++ List.replicate 4 false).getD i false = u.getD i false := by
  by_cases h : i < u.length
  · exact List.getD_append _ _ _ _ h
  · rw [List.getD_append_right _ _ _ _ (not_lt.1 h), List.getD_eq_default _ _ (not_lt.1 h)]
    exact List.getElem?_getD_replicate_default_eq ..

/-- The input bit k steps before step t, 0 before the first and after the last (R201). -/
def bitBack (u : Bits) (t k : Nat) : Bool := if k ≤ t then u.getD (t - k) false else false

theorem conv_getD (u : Bits) {t : Nat} (ht : t < u.length + 4) :
    (conv u).getD (2 * t) false = (bitBack u t 0 ^^ bitBack u t 3 ^^ bitBack u t 4)
    ∧ (conv u).getD (2 * t + 1) false = (bitBack u t 0 ^^ bitBack u t 1 ^^ bitBack u t 2 ^^ bitBack u t 4) := by
  have tap : ∀ k, convTap 0 (u ++ List.replicate 4 false) t k = bitBack u t k := fun k => by
    rw [convTap, bitBack, getD_append_flush]
    simp
  have coded := convFrom_getD 0 (u ++ List.replicate 4 false) (t := t) (by simpa using ht)
  simp only [tap] at coded
  exact coded

/-- Settles O34: the encoder from state 0, over the data and the flush zeros. -/
theorem convolutionalCode : Obligations.ConvolutionalCode :=
  fun u => ⟨conv_length u, fun _ ht => conv_getD u ht⟩

end Sys2Proof.Machine
end

section
/-! # CONV_ENC and PUNCT (45_conv_viterbi.md R202, R203, R208, R209; O36) -/

namespace Sys2Proof.Machine

/-! ## The keep masks of the four schedules (R202) -/

/-- The positions a schedule keeps, by arithmetic on the position. -/
def schedKeeps (sched : BitVec 4) (i : Nat) : Bool :=
  if sched = 1 then i % 61 % 4 != 2 else if sched = 2 then i % 12 != 11 else if sched = 3 then i % 8 != 7 else true

theorem maskBit_p1 (i : Nat) : maskBit maskP1 i = (i % 61 % 4 != 2) := by
  have period : ∀ r < 61, maskP1.getD r false = (r % 4 != 2) := by decide
  exact period _ (Nat.mod_lt i (by decide))

theorem maskBit_p2 (i : Nat) : maskBit maskP2 i = (i % 12 != 11) := by
  have period : ∀ r < 12, maskP2.getD r false = (r != 11) := by decide
  exact period _ (Nat.mod_lt i (by decide))

theorem maskBit_p3 (i : Nat) : maskBit maskP3 i = (i % 8 != 7) := by
  have period : ∀ r < 8, maskP3.getD r false = (r != 7) := by decide
  exact period _ (Nat.mod_lt i (by decide))

theorem maskBit_none (i : Nat) : maskBit [true] i = true := by
  rw [maskBit, List.length_singleton, Nat.mod_one]
  rfl

/-- The four values SCHED takes in a well-formed word (30_encoding.md R92). -/
theorem sched_cases {sched : BitVec 4} (h : sched.toNat ≤ 3) : sched = 0 ∨ sched = 1 ∨ sched = 2 ∨ sched = 3 := by
  revert sched
  decide

theorem maskBit_schedMask {sched : BitVec 4} (h : sched.toNat ≤ 3) (i : Nat) :
    maskBit (schedMask hw sched) i = schedKeeps sched i := by
  rcases sched_cases h with rfl | rfl | rfl | rfl
  · exact maskBit_none i
  · exact maskBit_p1 i
  · exact maskBit_p2 i
  · exact maskBit_p3 i

/-- The kept bits are those at the positions the schedule keeps (R203). -/
theorem puncture_schedMask {sched : BitVec 4} (h : sched.toNat ≤ 3) (c : Bits) :
    puncture (schedMask hw sched) c
      = ((List.range c.length).filter (schedKeeps sched)).map fun i => c.getD i false := by
  rw [puncture_eq _ false, funext (maskBit_schedMask h)]

/-! ## Commands that write a packed bit string (R208, R209, R210) -/

/-- A well-formed word passes the check of SCHED (30_encoding.md R98). -/
theorem withSched_of_le {sched : BitVec 4} (h : sched.toNat ≤ 3) (s : State) (r : Run) : withSched sched s r = r :=
  if_pos (decide_eq_true h)

/-- What CONV_ENC and PUNCT leave: a bit string packed in OBUF, the unused low bits 0, and its length in RES0. -/
theorem packedBits_yields {i : Instr} {s : State} {c : Bits}
    (hrun : commandRun i s = ((s.obWrite 0 (pack c)).setResNat 0 c.length).ok) (hlen : c.length < 2 ^ 32) :
    Yields i s none [0] ((c.length + 7) / 8) fun t =>
      ResIs t 0 c.length ∧ ∀ k < 8 * ((c.length + 7) / 8), t.obBit k = c.getD k false := by
  have hob : ObHolds (((s.obWrite 0 (pack c)).setResNat 0 c.length).complete none) 0 (pack c) := by simp
  refine Yields.of_run _ (hrun ▸ exec_eq_finish i s) rfl (HostSideKept.refl s) rfl ⟨rfl, rfl, rfl⟩
    (fun m hm => ?kept) (fun a ha => ?bytes) ?post
  case kept =>
    have hm0 : m ≠ 0 := by simpa using hm
    simp [hm0]
  case bytes => exact State.obWrite_byteAt_of_not _ 0 _ a (by rwa [pack_length])
  case post => exact ⟨.of_ofNat hlen (by simp), fun k hk => hob.obBit_pack hk⟩

section Sched

variable {s : State} {len : BitVec 16} {sched : BitVec 4} (hsched : sched.toNat ≤ 3)
include hsched

/-! ## CONV_ENC (R208) -/

theorem convEnc_badLength (h : 508 < len.toNat) : OnlyRaises (.convEnc len sched) s (.invalidInput .badLength) :=
  .of_run (exec_eq_finish (.convEnc len sched) s) ((withSched_of_le hsched s _).trans (if_pos h))

theorem convEnc_yields (h : len.toNat ≤ 508) :
    let c := puncture (schedMask hw sched) (conv ((List.range len.toNat).map s.ibBit))
    Yields (.convEnc len sched) s none [0] ((c.length + 7) / 8) fun t =>
      ResIs t 0 c.length ∧ ∀ k < 8 * ((c.length + 7) / 8), t.obBit k = c.getD k false := by
  rw [← State.ibits_zero]
  have hlen := puncture_length_le (schedMask hw sched) (conv (s.ibits 0 len.toNat))
  rw [conv_length, State.ibits_length] at hlen
  exact packedBits_yields ((withSched_of_le hsched s _).trans (if_neg (not_lt.2 h))) (by omega)

/-! ## PUNCT (R209) -/

theorem punct_badLength (h : 8192 < len.toNat) : OnlyRaises (.punct len sched) s (.invalidInput .badLength) :=
  .of_run (exec_eq_finish (.punct len sched) s) ((withSched_of_le hsched s _).trans (if_pos h))

theorem punct_yields (h : len.toNat ≤ 8192) :
    let c := puncture (schedMask hw sched) ((List.range len.toNat).map s.ibBit)
    Yields (.punct len sched) s none [0] ((c.length + 7) / 8) fun t =>
      ResIs t 0 c.length ∧ ∀ k < 8 * ((c.length + 7) / 8), t.obBit k = c.getD k false := by
  rw [← State.ibits_zero]
  have hlen := puncture_length_le (schedMask hw sched) (s.ibits 0 len.toNat)
  rw [State.ibits_length] at hlen
  exact packedBits_yields ((withSched_of_le hsched s _).trans (if_neg (not_lt.2 h))) (by omega)

end Sched

/-- Settles O36: both commands pack a punctured string, and puncturing keeps the positions of the schedule. -/
theorem convEncAndPunctCommands : Obligations.ConvEncAndPunctCommands := by
  intro s len sched hsched mask keeps input
  have kept_eq : ∀ c, keeps c = puncture (schedMask hw sched) c := fun c => (puncture_schedMask hsched c).symm
  have input_length : input.length = len.toNat := by simp [input]
  intro writes
  refine ⟨fun h => ⟨?conv, ?convKept⟩, fun h => convEnc_badLength hsched h, fun h => ⟨?punct, ?punctKept⟩,
    fun h => punct_badLength hsched h⟩
  case conv =>
    rw [kept_eq]
    exact convEnc_yields hsched h
  case convKept => rw [kept_eq, puncture_conv_length, input_length]
  case punct =>
    rw [kept_eq]
    exact punct_yields hsched h
  case punctKept => rw [kept_eq, puncture_length, input_length]

end Sys2Proof.Machine
end

section
/-! # Paths through the trellis (45_conv_viterbi.md R205, R206)

A path is the bit string that the encoder is fed. Its cost is the distance of its coded bits from the received soft
values; where costs are equal, paths are ordered by their value, bit j weighing 2^j. -/

namespace Sys2Proof.Machine

/-! ## Where a path ends -/

/-- The encoder's state after a bit string. -/
def endState (u : Bits) : BitVec 4 := u.foldl convNext 0

@[simp] theorem endState_concat (u : Bits) (b : Bool) : endState (u ++ [b]) = convNext (endState u) b := by
  simp [endState]

/-- The state q is reached from its two predecessors, on the same input bit (R206). -/
theorem convNext_eq_iff {q : Nat} (hq : q < 16) (p : BitVec 4) (b : Bool) :
    convNext p b = BitVec.ofNat 4 q
      ↔ b = (q % 2 == 1) ∧ (p = BitVec.ofNat 4 (predLo q) ∨ p = BitVec.ofNat 4 (predHi q)) := by
  have all : ∀ q < 16, ∀ (p : BitVec 4) (b : Bool), convNext p b = BitVec.ofNat 4 q
      ↔ b = (q % 2 == 1) ∧ (p = BitVec.ofNat 4 (predLo q) ∨ p = BitVec.ofNat 4 (predHi q)) := by decide
  exact all q hq p b

theorem endState_append_flush (u : Bits) : endState (u ++ List.replicate 4 false) = 0 := by
  have four : ∀ st : BitVec 4, (List.replicate 4 false).foldl convNext st = 0 := by decide
  rw [endState, List.foldl_append, four]

/-- A path that ends in state 0 ends with four zeros. -/
theorem append_flush_of_endState {N : Nat} {w : Bits} (hlen : w.length = N + 4) (hend : endState w = 0) :
    w = w.take N ++ List.replicate 4 false := by
  have four : ∀ (st : BitVec 4) (a b c d : Bool), [a, b, c, d].foldl convNext st = 0 →
      [a, b, c, d] = List.replicate 4 false := by decide
  have hlast : (w.drop N).length = 4 := by
    rw [List.length_drop]
    omega
  obtain ⟨a, b, c, d, hdrop⟩ := List.length_eq_four.1 hlast
  rw [← List.take_append_drop N w, hdrop, endState, List.foldl_append] at hend
  conv_lhs => rw [← List.take_append_drop N w, hdrop, four _ a b c d hend]

/-! ## What a path costs -/

/-- The summed distance of received pairs from the coded pairs of a path (R205). -/
def pathCost : BitVec 4 → List (SoftPos × SoftPos) → Bits → Nat
  | st, x :: xs, b :: u => branchMetric x (convOut st b) + pathCost (convNext st b) xs u
  | _, _, _ => 0

theorem pathCost_concat (st : BitVec 4) {xs : List (SoftPos × SoftPos)} {u : Bits} (h : u.length = xs.length)
    (x : SoftPos × SoftPos) (b : Bool) :
    pathCost st (xs ++ [x]) (u ++ [b]) = pathCost st xs u + branchMetric x (convOut (u.foldl convNext st) b) := by
  induction xs generalizing st u with
  | nil =>
    obtain rfl := List.length_eq_zero_iff.1 h
    exact Nat.add_comm ..
  | cons y xs ih =>
    cases u with
    | nil => cases h
    | cons c u =>
      simp only [List.cons_append, pathCost, List.foldl_cons, ih (convNext st c) (Nat.succ.inj h), Nat.add_assoc]

/-- The distance of a frame from the coded bits of a path, two positions a step. -/
theorem frameDistance_convFrom (st : BitVec 4) {X : List SoftPos} {u : Bits} (h : X.length = 2 * u.length) :
    frameDistance X (convFrom st u) = pathCost st (pairUp X) u := by
  induction u generalizing st X with
  | nil =>
    obtain rfl := List.length_eq_zero_iff.1 h
    rfl
  | cons b u ih =>
    match X, h with
    | x :: y :: X, h =>
      have rest := ih (convNext st b) (X := X) (by simp at h; omega)
      rw [frameDistance] at rest
      simp only [frameDistance, convFrom, pairUp, pathCost, branchMetric, List.zipWith_cons_cons, List.sum_cons, rest,
        Nat.add_assoc]

/-! ## The value of a path -/

/-- The value of a bit string, bit j weighing 2^j. -/
def stringValue (u : Bits) : Nat := ((List.range u.length).map fun j => (u.getD j false).toNat * 2 ^ j).sum

theorem stringValue_concat (u : Bits) (b : Bool) :
    stringValue (u ++ [b]) = stringValue u + b.toNat * 2 ^ u.length := by
  have older : ∀ j ∈ List.range u.length, ((u ++ [b]).getD j false).toNat * 2 ^ j = (u.getD j false).toNat * 2 ^ j :=
    fun j hj => by rw [List.getD_append _ _ _ _ (List.mem_range.1 hj)]
  rw [stringValue, List.length_append, List.length_singleton, List.range_succ, List.map_append, List.sum_append,
    List.map_congr_left older, List.map_singleton, List.sum_singleton,
    List.getD_append_right _ _ _ _ le_rfl, Nat.sub_self]
  rfl

theorem stringValue_lt (u : Bits) : stringValue u < 2 ^ u.length := by
  induction u using List.reverseRecOn with
  | nil => decide
  | append_singleton u b ih =>
    have hb := Nat.mul_le_mul_right (2 ^ u.length) (Bool.toNat_le b)
    rw [stringValue_concat, List.length_append, List.length_singleton, pow_succ]
    omega

theorem stringValue_append_flush (u : Bits) : stringValue (u ++ List.replicate 4 false) = stringValue u := by
  have zero : ∀ w : Bits, stringValue (w ++ [false]) = stringValue w := fun w => by
    rw [stringValue_concat, Bool.toNat_false, Nat.zero_mul, Nat.add_zero]
  rw [show u ++ List.replicate 4 false = u ++ [false] ++ [false] ++ [false] ++ [false] by simp, zero, zero, zero, zero]

/-- A longer path has a last bit. -/
theorem exists_concat_of_length {u : Bits} {n : Nat} (h : u.length = n + 1) :
    ∃ (w : Bits) (b : Bool), u = w ++ [b] ∧ w.length = n := by
  rcases List.eq_nil_or_concat' u with rfl | ⟨w, b, rfl⟩
  · cases h
  · exact ⟨w, b, rfl, by simpa using h⟩

theorem exists_concat_of_endState {w : Bits} {k : Nat} (h : (endState w).getLsbD k = true) : ∃ v c, w = v ++ [c] := by
  rcases List.eq_nil_or_concat' w with rfl | hw
  · exact absurd (h.symm.trans BitVec.getLsbD_zero) (by decide)
  · exact hw

/-- The end states order paths of one length: they are the last bits, the latest weighing most, and the highest state
bit is the oldest of them. -/
theorem stringValue_lt_of_endState {k : Nat} (hk : k < 4) {u w : Bits} (hlen : u.length = w.length)
    (hsame : ∀ i < k, (endState u).getLsbD i = (endState w).getLsbD i) (hu : (endState u).getLsbD k = false)
    (hw : (endState w).getLsbD k = true) : stringValue u < stringValue w := by
  induction k generalizing u w with
  | zero =>
    obtain ⟨w, c, rfl⟩ := exists_concat_of_endState hw
    obtain ⟨u, b, rfl, hlen'⟩ := exists_concat_of_length (n := w.length) (by simpa using hlen)
    rw [endState_concat, convNext_newest] at hu hw
    subst hu hw
    have hlt := stringValue_lt u
    rw [hlen'] at hlt
    simp only [stringValue_concat, hlen', Bool.toNat_false, Bool.toNat_true]
    omega
  | succ k ih =>
    obtain ⟨w, c, rfl⟩ := exists_concat_of_endState hw
    obtain ⟨u, b, rfl, hlen'⟩ := exists_concat_of_length (n := w.length) (by simpa using hlen)
    have hnewest := hsame 0 (by omega)
    simp only [endState_concat, convNext_newest] at hnewest
    rw [endState_concat, convNext_older _ _ (by omega)] at hu hw
    have older : ∀ i < k, (endState u).getLsbD i = (endState w).getLsbD i := fun i hi => by
      have := hsame (i + 1) (by omega)
      rwa [endState_concat, endState_concat, convNext_older _ _ (by omega), convNext_older _ _ (by omega)] at this
    have hlt := ih (by omega) hlen' older hu hw
    rw [stringValue_concat, stringValue_concat, hlen', hnewest]
    omega

/-- Of two paths of one length through the two predecessors of a state, the one through p_lo has the lower value: its
oldest bit is 0 (R206). -/
theorem stringValue_lt_of_pred {q : Nat} (hq : q < 16) {u w : Bits} (hlen : u.length = w.length)
    (hu : endState u = BitVec.ofNat 4 (predLo q)) (hw : endState w = BitVec.ofNat 4 (predHi q)) :
    stringValue u < stringValue w := by
  have states : ∀ q < 16, (∀ i < 3, (BitVec.ofNat 4 (predLo q)).getLsbD i = (BitVec.ofNat 4 (predHi q)).getLsbD i)
      ∧ (BitVec.ofNat 4 (predLo q)).getLsbD 3 = false ∧ (BitVec.ofNat 4 (predHi q)).getLsbD 3 = true := by decide
  obtain ⟨same, lo, hi⟩ := states q hq
  exact stringValue_lt_of_endState (k := 3) (by decide) hlen (by rwa [hu, hw]) (by rwa [hu]) (by rwa [hw])

end Sys2Proof.Machine
end

section
/-! # The survivors of add-compare-select (45_conv_viterbi.md R206, R207, R210; O37)

After every step the decoder holds, for each state, a path of least cost that ends there, the one of least value among
equals. That holds at the start and every step keeps it; the traceback from state 0 is then the path the command
gives. -/

namespace Sys2Proof.Machine

/-! ## The metrics with +∞ (R206) -/

theorem PathMetric.exists_le_of_le {a b : PathMetric} {y : Nat} (h : a.le b = true) (hb : b = some y) :
    ∃ x, a = some x ∧ x ≤ y := by
  subst hb
  cases a with
  | none => exact Bool.noConfusion h
  | some x => exact ⟨x, rfl, of_decide_eq_true h⟩

theorem PathMetric.exists_lt_of_not_le {a b : PathMetric} {x : Nat} (h : a.le b = false) (ha : a = some x) :
    ∃ y, b = some y ∧ y < x := by
  subst ha
  cases b with
  | none => exact Bool.noConfusion h
  | some y => exact ⟨y, rfl, not_le.1 (of_decide_eq_false h)⟩

/-! ## A survivor -/

/-- A path of n steps that ends in state q. -/
def PathTo (n q : Nat) (u : Bits) : Prop := u.length = n ∧ endState u = BitVec.ofNat 4 q

/-- The path v costs less than u on the received pairs, or as much and its value is not above that of u. -/
def NoWorse (xs : List (SoftPos × SoftPos)) (v u : Bits) : Prop :=
  pathCost 0 xs v < pathCost 0 xs u ∨ (pathCost 0 xs v = pathCost 0 xs u ∧ stringValue v ≤ stringValue u)

theorem NoWorse.trans {xs : List (SoftPos × SoftPos)} {v w u : Bits} (hvw : NoWorse xs v w) (hwu : NoWorse xs w u) :
    NoWorse xs v u := by
  unfold NoWorse at *
  omega

/-- The metric m and the path v are what the decoder holds for state q: a finite metric is the cost of v, which ends
there, and where any path ends there the metric is finite and v is no worse. -/
structure Survivor (xs : List (SoftPos × SoftPos)) (q : Nat) (m : PathMetric) (v : Bits) : Prop where
  path : ∀ d, m = some d → PathTo xs.length q v ∧ pathCost 0 xs v = d
  best : ∀ u, PathTo xs.length q u → (∃ d, m = some d) ∧ NoWorse xs v u

section Step

variable {xs : List (SoftPos × SoftPos)} {pm : List PathMetric} {x : SoftPos × SoftPos} {p q : Nat} {v : Bits}

theorem pathThrough_eq_some {d : Nat} (h : pathThrough pm x p q = some d) :
    ∃ c, pm.getD p none = some c ∧ d = c + branchMetric x (convOut (BitVec.ofNat 4 p) (q % 2 == 1)) := by
  obtain ⟨c, hc, rfl⟩ := Option.map_eq_some_iff.1 h
  exact ⟨c, hc, rfl⟩

/-- A path of one step more costs its last branch more. -/
theorem PathTo.cost_concat {u : Bits} (h : PathTo xs.length p u) (b : Bool) :
    pathCost 0 (xs ++ [x]) (u ++ [b])
      = pathCost 0 xs u + branchMetric x (convOut (BitVec.ofNat 4 p) b) := by
  rw [pathCost_concat 0 h.1, ← h.2, endState]

theorem PathTo.concat {n : Nat} {u : Bits} (h : PathTo n p u) (hq : q < 16) (hp : p = predLo q ∨ p = predHi q) :
    PathTo (n + 1) q (u ++ [q % 2 == 1]) := by
  refine ⟨by simp [h.1], ?_⟩
  rw [endState_concat, convNext_eq_iff hq, h.2]
  exact ⟨rfl, hp.imp (congrArg _) (congrArg _)⟩

/-- A path to state q is one to a predecessor and the bit that q names (R206). -/
theorem PathTo.exists_pred {n : Nat} {u : Bits} (h : PathTo (n + 1) q u) (hq : q < 16) :
    ∃ w, u = w ++ [q % 2 == 1] ∧ (PathTo n (predLo q) w ∨ PathTo n (predHi q) w) := by
  obtain ⟨w, b, rfl, hlen⟩ := exists_concat_of_length h.1
  have hend := h.2
  rw [endState_concat, convNext_eq_iff hq] at hend
  obtain ⟨rfl, hpred⟩ := hend
  exact ⟨w, rfl, hpred.imp (⟨hlen, ·⟩) (⟨hlen, ·⟩)⟩

/-- What the candidate through one predecessor is: the survivor there, one step on. -/
theorem Survivor.candidate_path (hv : Survivor xs p (pm.getD p none) v) (hq : q < 16)
    (hp : p = predLo q ∨ p = predHi q) {d : Nat} (hd : pathThrough pm x p q = some d) :
    PathTo (xs ++ [x]).length q (v ++ [q % 2 == 1]) ∧ pathCost 0 (xs ++ [x]) (v ++ [q % 2 == 1]) = d := by
  obtain ⟨c, hc, rfl⟩ := pathThrough_eq_some hd
  obtain ⟨hpath, hcost⟩ := hv.path c hc
  rw [List.length_append, List.length_singleton, hpath.cost_concat, hcost]
  exact ⟨hpath.concat hq hp, rfl⟩

/-- The candidate through one predecessor is no worse than any path through it. -/
theorem Survivor.candidate_best (hv : Survivor xs p (pm.getD p none) v) {w : Bits} (hw : PathTo xs.length p w) :
    (∃ d, pathThrough pm x p q = some d) ∧ NoWorse (xs ++ [x]) (v ++ [q % 2 == 1]) (w ++ [q % 2 == 1]) := by
  obtain ⟨⟨c, hc⟩, hle⟩ := hv.best w hw
  obtain ⟨hpath, -⟩ := hv.path c hc
  refine ⟨⟨_, by rw [pathThrough, hc]; rfl⟩, ?_⟩
  rw [NoWorse, hpath.cost_concat, hw.cost_concat, stringValue_concat, stringValue_concat, hpath.1, hw.1]
  exact hle.imp (by omega) (by omega)

section Candidates

variable {lo hi : Bits} (hq : q < 16) (hlo : Survivor xs (predLo q) (pm.getD (predLo q) none) lo)
  (hhi : Survivor xs (predHi q) (pm.getD (predHi q) none) hi)
include hq hlo hhi

/-- The candidate through p_lo where it does not cost more: a tie goes to it, and its value is lower. -/
theorem Survivor.noWorse_lo {dlo dhi : Nat} (elo : pathThrough pm x (predLo q) q = some dlo)
    (ehi : pathThrough pm x (predHi q) q = some dhi) (h : dlo ≤ dhi) :
    NoWorse (xs ++ [x]) (lo ++ [q % 2 == 1]) (hi ++ [q % 2 == 1]) := by
  obtain ⟨clo, hclo, -⟩ := pathThrough_eq_some elo
  obtain ⟨chi, hchi, -⟩ := pathThrough_eq_some ehi
  obtain ⟨⟨hlenlo, hendlo⟩, -⟩ := hlo.path clo hclo
  obtain ⟨⟨hlenhi, hendhi⟩, -⟩ := hhi.path chi hchi
  have hvalue := stringValue_lt_of_pred hq (hlenlo.trans hlenhi.symm) hendlo hendhi
  obtain ⟨-, hcostlo⟩ := hlo.candidate_path hq (.inl rfl) elo
  obtain ⟨-, hcosthi⟩ := hhi.candidate_path hq (.inr rfl) ehi
  rw [NoWorse, hcostlo, hcosthi, stringValue_concat, stringValue_concat, hlenlo, hlenhi]
  omega

/-- The candidate through p_hi where it costs less. -/
theorem Survivor.noWorse_hi {dlo dhi : Nat} (elo : pathThrough pm x (predLo q) q = some dlo)
    (ehi : pathThrough pm x (predHi q) q = some dhi) (h : dhi < dlo) :
    NoWorse (xs ++ [x]) (hi ++ [q % 2 == 1]) (lo ++ [q % 2 == 1]) := by
  obtain ⟨-, hcostlo⟩ := hlo.candidate_path hq (.inl rfl) elo
  obtain ⟨-, hcosthi⟩ := hhi.candidate_path hq (.inr rfl) ehi
  rw [NoWorse, hcostlo, hcosthi]
  exact .inl h

/-- Add-compare-select keeps a survivor: the better of the two candidates. -/
theorem Survivor.acs :
    Survivor (xs ++ [x]) q (acsState pm x q).1 ((if (acsState pm x q).2 then hi else lo) ++ [q % 2 == 1]) := by
  obtain ⟨hchosen, -, -, hdecision⟩ := acsState_spec pm x q
  cases hd : (acsState pm x q).2 with
  | false =>
    have hle : (pathThrough pm x (predLo q) q).le (pathThrough pm x (predHi q) q) = true := by
      simpa [hd] using hdecision
    rw [hd, if_neg Bool.false_ne_true] at hchosen
    rw [hchosen, if_neg Bool.false_ne_true]
    refine ⟨fun d h => hlo.candidate_path hq (.inl rfl) h, fun u hu => ?_⟩
    rw [List.length_append] at hu
    obtain ⟨w, rfl, hw | hw⟩ := hu.exists_pred hq
    · exact hlo.candidate_best hw
    · obtain ⟨⟨dhi, ehi⟩, hbest⟩ := hhi.candidate_best (x := x) (q := q) hw
      obtain ⟨dlo, elo, hcost⟩ := PathMetric.exists_le_of_le hle ehi
      exact ⟨⟨dlo, elo⟩, (hlo.noWorse_lo hq hhi elo ehi hcost).trans hbest⟩
  | true =>
    rw [hd, if_pos rfl] at hchosen
    rw [hchosen, if_pos rfl]
    refine ⟨fun d h => hhi.candidate_path hq (.inr rfl) h, fun u hu => ?_⟩
    rw [List.length_append] at hu
    obtain ⟨w, rfl, hw | hw⟩ := hu.exists_pred hq
    · obtain ⟨⟨dlo, elo⟩, hbest⟩ := hlo.candidate_best (x := x) (q := q) hw
      obtain ⟨dhi, ehi, hcost⟩ := PathMetric.exists_lt_of_not_le (hdecision.1 hd) elo
      exact ⟨⟨dhi, ehi⟩, (hlo.noWorse_hi hq hhi elo ehi hcost).trans hbest⟩
    · exact hhi.candidate_best hw

end Candidates

end Step

/-! ## The forward pass and the traceback (R207) -/

theorem traceback_append (ds : List (List Bool)) (q : Nat) (v : Bits) :
    traceback ds q v = traceback ds q [] ++ v := by
  induction ds generalizing q v with
  | nil => rfl
  | cons d ds ih => rw [traceback, ih, traceback, ih _ [_], List.append_assoc, List.singleton_append]

/-- What the decoder holds after the received pairs xs: a survivor for each state. -/
def Survivors (xs : List (SoftPos × SoftPos)) (pm : List PathMetric) (decs : List (List Bool)) : Prop :=
  ∀ q < 16, Survivor xs q (pm.getD q none) (traceback decs q [])

/-- The encoder starts in state 0 (R206). -/
theorem survivors_initial : Survivors [] initialMetrics [] := by
  intro q hq
  cases q with
  | zero =>
    refine ⟨fun d hd => ⟨⟨rfl, rfl⟩, Option.some.inj hd⟩, fun u ⟨hlen, _⟩ => ?_⟩
    obtain rfl := List.length_eq_zero_iff.1 hlen
    exact ⟨⟨0, rfl⟩, .inr ⟨rfl, le_rfl⟩⟩
  | succ q =>
    have unreached : initialMetrics.getD (q + 1) none = none := List.getElem?_getD_replicate_default_eq none 15 q
    refine ⟨fun d hd => ?_, fun u ⟨hlen, hend⟩ => ?_⟩
    · cases unreached.symm.trans hd
    · obtain rfl := List.length_eq_zero_iff.1 hlen
      have := congrArg BitVec.toNat hend
      rw [BitVec.toNat_ofNat, Nat.mod_eq_of_lt hq] at this
      cases this

/-- One step of the forward pass, and the first of the traceback. -/
theorem Survivors.acs {xs : List (SoftPos × SoftPos)} {pm : List PathMetric} {decs : List (List Bool)}
    (h : Survivors xs pm decs) (x : SoftPos × SoftPos) :
    Survivors (xs ++ [x]) ((acs pm x).map Prod.fst) ((acs pm x).map Prod.snd :: decs) := by
  intro q hq
  have hpm : ((Machine.acs pm x).map Prod.fst).getD q none = (acsState pm x q).1 := by
    simp [Machine.acs, List.getD_eq_getElem?_getD, hq]
  have hdec : ((Machine.acs pm x).map Prod.snd).getD q false = (acsState pm x q).2 := by
    simp [Machine.acs, List.getD_eq_getElem?_getD, hq]
  have hlo := h (predLo q) (by unfold predLo; omega)
  have hhi := h (predHi q) (by unfold predHi; omega)
  rw [hpm, traceback, hdec, traceback_append, apply_ite (traceback decs · [])]
  exact hlo.acs hq hhi

theorem Survivors.forward {xs ys : List (SoftPos × SoftPos)} {pm : List PathMetric} {decs : List (List Bool)}
    (h : Survivors ys pm decs) :
    Survivors (ys ++ xs) (viterbiForward xs pm decs).1 (viterbiForward xs pm decs).2 := by
  induction xs generalizing ys pm decs with
  | nil => simpa [viterbiForward] using h
  | cons x xs ih =>
    rw [viterbiForward, List.append_cons]
    exact ih (h.acs x)

/-! ## The decoder -/

/-- The distance of the received soft values from the code of a bit string (R205, R207). -/
def codeDistance (P : Bits) (N : Nat) (S : Bytes) (u : Bits) : Nat :=
  frameDistance (depuncture P (2 * (N + 4)) S) (conv u)

/-- It is the cost of the string and the flush zeros. -/
theorem codeDistance_eq_pathCost (P : Bits) (S : Bytes) {N : Nat} {u : Bits} (hu : u.length = N) :
    codeDistance P N S u = pathCost 0 (pairUp (depuncture P (2 * (N + 4)) S)) (u ++ List.replicate 4 false) :=
  frameDistance_convFrom 0 (by simp [hu])

/-- The decoder gives the bits of least distance, those of least value among equals, and that distance. -/
theorem viterbi_least (P : Bits) (N : Nat) (S : Bytes) :
    (viterbi P N S).2 = codeDistance P N S (viterbi P N S).1
    ∧ ∀ u : Bits, u.length = N → codeDistance P N S (viterbi P N S).1 < codeDistance P N S u
        ∨ (codeDistance P N S (viterbi P N S).1 = codeDistance P N S u
          ∧ stringValue (viterbi P N S).1 ≤ stringValue u) := by
  have hlen := viterbi_length P N S
  have hsteps := pairUp_length (N + 4) (depuncture P (2 * (N + 4)) S) (depuncture_length ..)
  have hsurvivor := survivors_initial.forward (xs := pairUp (depuncture P (2 * (N + 4)) S)) 0 (by decide)
  rw [List.nil_append] at hsurvivor
  have flushed : ∀ u : Bits, u.length = N →
      PathTo (pairUp (depuncture P (2 * (N + 4)) S)).length 0 (u ++ List.replicate 4 false) := fun u hu =>
    ⟨by simp [hu, hsteps], endState_append_flush u⟩
  obtain ⟨⟨d, hd⟩, -⟩ := hsurvivor.best _ (flushed (List.replicate N false) List.length_replicate)
  obtain ⟨⟨hpath, hend⟩, hcost⟩ := hsurvivor.path d hd
  have hmetric : (viterbi P N S).2 = d := congrArg (·.getD 0) hd
  have hdecoded : _ = (viterbi P N S).1 ++ List.replicate 4 false :=
    append_flush_of_endState (hpath.trans hsteps) hend
  rw [hdecoded, ← codeDistance_eq_pathCost P S hlen] at hcost
  refine ⟨hmetric.trans hcost.symm, fun u hu => ?_⟩
  have hbest := (hsurvivor.best _ (flushed u hu)).2
  rw [hdecoded, NoWorse, ← codeDistance_eq_pathCost P S hlen, ← codeDistance_eq_pathCost P S hu,
    stringValue_append_flush, stringValue_append_flush] at hbest
  exact hbest

/-! ## VITERBI (R210) -/

theorem posDist_le (x : SoftPos) (e : Bool) : posDist x e ≤ 255 := by
  cases x with
  | none => exact Nat.zero_le _
  | some v => exact dist_le v e

theorem codeDistance_le (P : Bits) (N : Nat) (S : Bytes) (u : Bits) : codeDistance P N S u ≤ 510 * (N + 4) := by
  have each : ∀ m ∈ List.zipWith posDist (depuncture P (2 * (N + 4)) S) (conv u), m ≤ 255 := fun m hm => by
    rw [← List.map_uncurry_zip_eq_zipWith] at hm
    obtain ⟨⟨x, e⟩, -, rfl⟩ := List.mem_map.1 hm
    exact posDist_le x e
  have positions : (List.zipWith posDist (depuncture P (2 * (N + 4)) S) (conv u)).length ≤ 2 * (N + 4) := by
    rw [List.length_zipWith, depuncture_length]
    exact min_le_left ..
  have total := List.sum_le_card_nsmul _ 255 each
  rw [smul_eq_mul] at total
  rw [codeDistance, frameDistance]
  omega

/-- The decoder answers N bits and a metric that the number of positions bounds (R207). -/
theorem viterbi_result {P : Bits} {N : Nat} {S : Bytes} {v : Bits} {m : Nat} (h : viterbi P N S = (v, m)) :
    v.length = N ∧ m ≤ 510 * (N + 4) := by
  have hlength := viterbi_length P N S
  have hmetric := (viterbi_least P N S).1
  rw [h] at hlength hmetric
  exact ⟨hlength, hmetric.trans_le (codeDistance_le ..)⟩

section Command

variable {s : State} {len : BitVec 16} {sched : BitVec 4} (hsched : sched.toNat ≤ 3)
include hsched

theorem viterbi_badLength (h : 508 < len.toNat) : OnlyRaises (.viterbi len sched) s (.invalidInput .badLength) :=
  .of_run (exec_eq_finish (.viterbi len sched) s) ((withSched_of_le hsched s _).trans (if_pos h))

/-- VITERBI writes what the decoder finds (R210). -/
theorem viterbi_yields (h : len.toNat ≤ 508) {v : Bits} {m K : Nat}
    (hK : kept (schedMask hw sched) (2 * (len.toNat + 4)) = K)
    (hr : viterbi (schedMask hw sched) len.toNat (s.ibytes 0 K) = (v, m)) :
    Yields (.viterbi len sched) s none [0, 1, 2] ((len.toNat + 7) / 8) fun t =>
      (∀ k < 8 * ((len.toNat + 7) / 8), t.obBit k = v.getD k false) ∧ ResIs t 0 m ∧ ResIs t 1 len.toNat
        ∧ ResIs t 2 K := by
  obtain ⟨hv, hm⟩ := viterbi_result hr
  have hKle : K ≤ 2 * (len.toNat + 4) := hK ▸ kept_le _ _
  have hrun : commandRun (.viterbi len sched) s
      = ((((s.obWrite 0 (pack v)).setResNat 0 m).setResNat 1 len.toNat).setResNat 2 K).ok := by
    refine (withSched_of_le hsched s _).trans ((if_neg (not_lt.2 h)).trans ?_)
    simp only [hK, hr]
  have hob : ObHolds (((((s.obWrite 0 (pack v)).setResNat 0 m).setResNat 1 len.toNat).setResNat 2 K).complete none) 0
      (pack v) := by simp
  refine Yields.of_run _ (hrun ▸ exec_eq_finish _ s) rfl (HostSideKept.refl s) rfl ⟨rfl, rfl, rfl⟩
    (fun n hn => ?kept) (fun a ha => ?bytes) ?post
  case kept =>
    obtain ⟨h0, h1, h2⟩ : n ≠ 0 ∧ n ≠ 1 ∧ n ≠ 2 := by simpa using hn
    simp [h0, h1, h2]
  case bytes => exact State.obWrite_byteAt_of_not _ 0 _ a (by rwa [pack_length, hv])
  case post =>
    rw [← hv]
    exact ⟨fun k hk => hob.obBit_pack hk, .of_ofNat (by omega) (by simp), .of_ofNat (by omega) (by simp [hv]),
      .of_ofNat (by omega) (by simp)⟩

end Command

/-- Settles O37: the command writes the survivor in state 0. -/
theorem viterbiIsMaximumLikelihood : Obligations.ViterbiIsMaximumLikelihood := by
  intro s len sched hsched N mask K D value
  refine ⟨fun h => ?_, fun h => viterbi_badLength hsched h⟩
  obtain ⟨hmetric, hleast⟩ := viterbi_least mask N (s.ibytes 0 K)
  have hlen := viterbi_length mask N (s.ibytes 0 K)
  have hvalue : ∀ u : Bits, u.length = N → value u = stringValue u := fun u hu => by rw [stringValue, hu]
  have hbound : D (viterbi mask N (s.ibytes 0 K)).1 ≤ 261120 :=
    (codeDistance_le mask N (s.ibytes 0 K) _).trans (by omega)
  refine ⟨_, hlen, viterbi_yields hsched h rfl (Prod.ext rfl hmetric), hbound, fun u hu => ?_⟩
  rw [hvalue _ hlen, hvalue u hu]
  exact hleast u hu

end Sys2Proof.Machine
end

section
/-! # The round trip of the convolutional code (45_conv_viterbi.md R207; O38)

The decoded bits have distance 0 from the soft image of a code, so their code has the same kept bits. No mask erases
both coded bits of a step, and the last bit in which two strings differ is in both coded bits four steps later: the
strings are the same. -/

namespace Sys2Proof.Machine

/-! ## The soft image of a punctured code -/

/-- A bit string has distance 0 from the soft image of a punctured one exactly when the kept bits agree. -/
theorem frameDistance_image_eq_zero_iff (P : Bits) (i : Nat) {c e : Bits} (h : e.length = c.length) :
    frameDistance (depunctureFrom P i c.length ((punctureFrom P i c).map softBit)) e = 0
      ↔ ∀ j < c.length, maskBit P (i + j) = true → e.getD j false = c.getD j false := by
  induction c generalizing i e with
  | nil => simp [depunctureFrom, frameDistance]
  | cons b c ih =>
    obtain ⟨a, e, rfl⟩ := List.exists_of_length_succ e h
    have rest := ih (i + 1) (e := e) (by simpa using h)
    have later : (∀ j < (b :: c).length, maskBit P (i + j) = true → (a :: e).getD j false = (b :: c).getD j false)
        ↔ (maskBit P i = true → a = b)
          ∧ ∀ j < c.length, maskBit P (i + 1 + j) = true → e.getD j false = c.getD j false := by
      rw [List.length_cons, Nat.forall_lt_succ_left]
      simp only [List.getD_cons_succ, List.getD_cons_zero, Nat.add_zero, Nat.add_assoc, Nat.add_comm 1]
    rw [later, ← rest]
    cases hm : maskBit P i with
    | false => simp [depunctureFrom, punctureFrom, hm, frameDistance, posDist]
    | true => simp [depunctureFrom, punctureFrom, hm, frameDistance, posDist, eq_comm]

/-! ## Strings with the same kept bits -/

/-- The mask keeps at least one coded bit of every step. -/
def KeepsEachStep (P : Bits) : Prop := ∀ t, maskBit P (2 * t) = true ∨ maskBit P (2 * t + 1) = true

/-- No schedule erases two neighbouring positions (R202). -/
theorem schedKeeps_neighbours (sched : BitVec 4) (i : Nat) :
    schedKeeps sched i = true ∨ schedKeeps sched (i + 1) = true := by
  unfold schedKeeps
  split_ifs
  · rw [bne_iff_ne, bne_iff_ne]
    omega
  · rw [bne_iff_ne, bne_iff_ne]
    omega
  · rw [bne_iff_ne, bne_iff_ne]
    omega
  · exact .inl rfl

theorem keepsEachStep_schedMask {sched : BitVec 4} (h : sched.toNat ≤ 3) : KeepsEachStep (schedMask hw sched) := by
  intro t
  rw [maskBit_schedMask h, maskBit_schedMask h]
  exact schedKeeps_neighbours sched (2 * t)

section Injective

variable {P : Bits} (hP : KeepsEachStep P) {u v : Bits} (hlen : v.length = u.length)
  (hkept : ∀ j < (conv u).length, maskBit P j = true → (conv v).getD j false = (conv u).getD j false)
include hP hlen hkept

/-- Bit n is in both coded bits of step n + 4, beside later bits only; one of the two is kept. -/
theorem getD_eq_of_later {n : Nat} (hn : n < u.length) (hlater : ∀ i, n < i → v.getD i false = u.getD i false) :
    v.getD n false = u.getD n false := by
  have later : ∀ k < 4, bitBack v (n + 4) k = bitBack u (n + 4) k := fun k hk => by
    rw [bitBack, bitBack, if_pos (by omega), if_pos (by omega)]
    exact hlater _ (by omega)
  obtain ⟨g1u, g2u⟩ := conv_getD u (t := n + 4) (by omega)
  obtain ⟨g1v, g2v⟩ := conv_getD v (t := n + 4) (by omega)
  rw [conv_length] at hkept
  have oldest : bitBack v (n + 4) 4 = bitBack u (n + 4) 4 := by
    rcases hP (n + 4) with hbit | hbit
    · have heq := hkept _ (by omega) hbit
      rw [g1u, g1v, later 0 (by decide), later 3 (by decide)] at heq
      simpa using heq
    · have heq := hkept _ (by omega) hbit
      rw [g2u, g2v, later 0 (by decide), later 1 (by decide), later 2 (by decide)] at heq
      simpa using heq
  simpa [bitBack] using oldest

/-- The kept bits of the code determine the string, from its end backwards. -/
theorem eq_of_kept_conv : v = u := by
  have agree : ∀ k n, u.length ≤ n + k → v.getD n false = u.getD n false := by
    intro k
    induction k with
    | zero =>
      intro n hn
      have hu : u.length ≤ n := hn
      rw [List.getD_eq_default _ _ (hlen ▸ hu), List.getD_eq_default _ _ hu]
    | succ k ih =>
      intro n hn
      by_cases hend : u.length ≤ n
      · exact ih n (by omega)
      · exact getD_eq_of_later hP hlen hkept (not_le.1 hend) fun i hi => ih i (by omega)
  refine List.ext_getElem hlen fun n hv hu => ?_
  have hn := agree u.length n (by omega)
  rwa [List.getD_eq_getElem _ _ hv, List.getD_eq_getElem _ _ hu] at hn

end Injective

/-- The decoder undoes the encoder: from the soft image of the kept bits it gives the encoded bits, with metric 0
(R207). -/
theorem viterbi_image {P : Bits} (hP : KeepsEachStep P) {N : Nat} {u : Bits} (hu : u.length = N) :
    viterbi P N ((puncture P (conv u)).map softBit) = (u, 0) := by
  subst hu
  have zero_iff : ∀ v : Bits, v.length = u.length →
      (codeDistance P u.length ((puncture P (conv u)).map softBit) v = 0
        ↔ ∀ j < (conv u).length, maskBit P j = true → (conv v).getD j false = (conv u).getD j false) := fun v hv => by
    have image := frameDistance_image_eq_zero_iff P 0 (c := conv u) (e := conv v) (by rw [conv_length, conv_length, hv])
    simp only [Nat.zero_add, conv_length] at image ⊢
    exact image
  have hlen := viterbi_length P u.length ((puncture P (conv u)).map softBit)
  obtain ⟨hmetric, hleast⟩ := viterbi_least P u.length ((puncture P (conv u)).map softBit)
  have hzero : codeDistance P u.length ((puncture P (conv u)).map softBit) u = 0 := (zero_iff u rfl).2 fun _ _ _ => rfl
  have hdist : codeDistance P u.length ((puncture P (conv u)).map softBit)
      (viterbi P u.length ((puncture P (conv u)).map softBit)).1 = 0 := by
    have := hleast u rfl
    omega
  exact Prod.ext (eq_of_kept_conv hP hlen ((zero_iff _ hlen).1 hdist)) (hmetric.trans hdist)

/-! ## VITERBI of what CONV_ENC wrote (R208, R210) -/

/-- Settles O38: what VITERBI reads is the soft image of the kept bits. -/
theorem convViterbiRoundTrip : Obligations.ConvViterbiRoundTrip := by
  intro s t s' len sched hsched hlen ht himage
  obtain ⟨-, -, hbits⟩ := (convEnc_yields hsched hlen).of_next ht
  have hu : ((List.range len.toNat).map s.ibBit).length = len.toNat := by simp
  generalize hinput : (List.range len.toNat).map s.ibBit = u at hbits hu
  have hK : (puncture (schedMask hw sched) (conv u)).length = kept (schedMask hw sched) (2 * (len.toNat + 4)) := by
    rw [puncture_conv_length, hu]
  have received : s'.ibytes 0 (kept (schedMask hw sched) (2 * (len.toNat + 4)))
      = (puncture (schedMask hw sched) (conv u)).map softBit := by
    refine List.ext_getElem (by simp [hK]) fun k hk hk' => ?_
    rw [List.length_map] at hk'
    rw [State.ibytes_getElem, Nat.zero_add, himage k (Nat.zero_le k) (hK ▸ hk'), hbits k (by omega), List.getElem_map,
      List.getD_eq_getElem _ _ hk']
  refine (viterbi_yields hsched hlen rfl (received ▸ viterbi_image (keepsEachStep_schedMask hsched) hu)).imp ?_
  rintro t' ⟨hdecoded, hmetric, -, -⟩
  refine ⟨fun k hk => ?_, hmetric⟩
  rw [hdecoded k (by omega), ← hinput]
  simp [List.getD_eq_getElem?_getD, hk]

end Sys2Proof.Machine
end

section
/-! # The frame and the receiver's front end (49_pipeline_bert.md R321, R322; O59)

The front end of a receiver undoes the frame of a transmitter position by position: the permutation is its own inverse,
and a soft bit is mirrored where its bit was flipped. -/

namespace Sys2Proof.Machine

/-! ## The permutation (46_interleave_randomize_prbs.md R230) -/

/-- On the even positions π is a multiplication by 45 modulo 184: the square term is a multiple of 368. -/
theorem qpp_even (k : Nat) : qpp (2 * k) = 2 * (45 * k % 184) := by
  rw [qpp, show 45 * (2 * k) + 92 * (2 * k) ^ 2 = 90 * k + 368 * k ^ 2 by ring, Nat.add_mul_mod_self_left]
  omega

/-- On the odd positions, where the square term is 92 modulo 368, it is 45k + 68 modulo 184. -/
theorem qpp_odd (k : Nat) : qpp (2 * k + 1) = 2 * ((45 * k + 68) % 184) + 1 := by
  rw [qpp, show 45 * (2 * k + 1) + 92 * (2 * k + 1) ^ 2 = 90 * k + 137 + 368 * (k ^ 2 + k) by ring,
    Nat.add_mul_mod_self_left]
  omega

/-- π is its own inverse: 45 is its own inverse modulo 184. -/
theorem qpp_qpp {i : Nat} (hi : i < 368) : qpp (qpp i) = i := by
  obtain ⟨k, rfl | rfl⟩ := Nat.even_or_odd' i
  · rw [qpp_even, qpp_even]
    omega
  · rw [qpp_odd, qpp_odd]
    omega

/-! ## One frame through both -/

/-- Bit 16 + i of a frame: coded bit π(i), whitened (R321). -/
theorem frame_getD (sync : BitVec 16) (c : Bits) {i : Nat} (hi : i < 368) :
    (bits (beBytes 2 sync.toNat) ++ randomizeHard hw (interleave false c)).getD (16 + i) false
      = (c.getD (qpp i) false ^^ (randBits hw).getD i false) := by
  rw [List.getD_append_right _ _ _ _ (by simp), bits_length, beBytes_length, Nat.add_sub_cancel_left,
    randomizeHard_getD _ i hi (by simp), interleave_getD false c i hi]

theorem obBit_of_txFrame {t : State} {sync : BitVec 16} {c : Bits} (hob : ObHolds t 0 (txFrame hw sync c)) {i : Nat}
    (hi : i < 368) : t.obBit (16 + i) = (c.getD (qpp i) false ^^ (randBits hw).getD i false) := by
  rw [hob.obBit_pack (by simp; omega), frame_getD sync c hi]

/-- Whitening flips a bit, dewhitening mirrors its soft value (46_interleave_randomize_prbs.md R233). -/
theorem softBit_dewhiten (b r : Bool) : (if r then 255 - softBit (b ^^ r) else softBit (b ^^ r)) = softBit b := by
  revert b r
  decide

/-- Of the soft image of a frame the front end gives the soft image of the coded bits (R322). -/
theorem rxFront_of_txFrame {t s' : State} {sync : BitVec 16} {c : Bits} (hc : c.length = 368)
    (hob : ObHolds t 0 (txFrame hw sync c)) (himage : SoftImage t s' 16 384) :
    rxFront hw (s'.ibytes 0 384) = c.map softBit := by
  have position : ∀ i < 368, (rxFront hw (s'.ibytes 0 384)).getD i 0 = softBit (c.getD i false) := fun i hi => by
    have hj := qpp_lt i
    rw [rxFront, interleave_getD 0 _ i hi, State.slice_ibytes s' 0 384 16 384 (by decide),
      randomizeSoft_getD _ _ hj (by simp), State.ibytes_getD _ _ _ _ (by omega), Nat.zero_add,
      himage _ (by omega) (by omega), obBit_of_txFrame hob hj, qpp_qpp hi]
    exact softBit_dewhiten _ _
  refine List.ext_getElem (by simp [rxFront, hc]) fun i hi hi' => ?_
  rw [List.length_map] at hi'
  have hpos := position i (hc ▸ hi')
  rwa [List.getD_eq_getElem _ _ hi, List.getD_eq_getElem _ _ hi', ← List.getElem_map softBit] at hpos

end Sys2Proof.Machine
end

section
/-! # Byte sequences, packed bits and soft words in a frame (00_scope.md R8, 44_golay.md R185) -/

namespace Sys2Proof.Machine

/-! ## Slices of a sequence in two parts -/

theorem slice_append_left {A : Bytes} (B : Bytes) (i : Nat) {j : Nat} (h : j ≤ A.length) :
    slice (A ++ B) i j = slice A i j := by
  refine List.ext_getElem? fun k => ?_
  rw [slice_getElem?, slice_getElem?]
  split
  · rw [List.getElem?_append_left (by omega)]
  · rfl

theorem slice_append_right (A B : Bytes) : slice (A ++ B) A.length (A.length + B.length) = B := by
  rw [slice, List.drop_left, Nat.add_sub_cancel_left, List.take_length]

theorem ObHolds.of_append {t : State} {i : Nat} {A B : Bytes} (h : ObHolds t i (A ++ B)) :
    ObHolds t i A ∧ ObHolds t (i + A.length) B := by
  refine ⟨fun k hk => ?_, fun k hk => ?_⟩
  · rw [h k (by rw [List.length_append]; omega), List.getElem_append_left hk]
  · rw [Nat.add_assoc, h (A.length + k) (by rw [List.length_append]; omega), List.getElem_append_right (by omega)]
    simp

/-! ## Packing -/

/-- A byte sequence is known by its bits. -/
theorem bytes_eq_of_bits {A B : Bytes} (hlen : A.length = B.length)
    (h : ∀ i < 8 * A.length, (bits A).getD i false = (bits B).getD i false) : A = B := by
  rw [← pack_bits A, ← pack_bits B]
  refine congrArg pack (List.ext_getElem (by simp [hlen]) fun i hi hi' => ?_)
  have hbit := h i (by rwa [bits_length] at hi)
  rwa [List.getD_eq_getElem _ _ hi, List.getD_eq_getElem _ _ hi'] at hbit

/-- Whole bytes before a bit string stay what they are. -/
theorem pack_bits_append (A : Bytes) (c : Bits) : pack (bits A ++ c) = A ++ pack c := by
  refine bytes_eq_of_bits (by simp; omega) fun i hi => ?_
  rw [pack_length] at hi
  rw [bits_pack_getD _ _ hi, bits_append]
  rw [List.length_append, bits_length] at hi
  by_cases h : i < (bits A).length
  · rw [List.getD_append _ _ _ _ h, List.getD_append _ _ _ _ h]
  · rw [List.getD_append_right _ _ _ _ (not_lt.1 h), List.getD_append_right _ _ _ _ (not_lt.1 h),
      bits_pack_getD _ _ (by rw [bits_length] at h ⊢; omega)]

/-- The first six bits of a byte. -/
theorem pack_take_six (b : Byte) : pack ((bits [b]).take 6) = [b &&& 0xFC] := by
  revert b
  decide

theorem msb_toNat (b : Byte) : (b.getLsbD 7).toNat = b.toNat / 128 := by
  revert b
  decide

/-! ## A LICH unit (44_golay.md R184, R185) -/

/-- The soft image of an encoded unit decodes to it with metric 0, bad only for a counter above 5. -/
theorem lichSoftDecode_image (u : BitVec 48) :
    lichSoftDecode hw ((lichEncode hw u).map softBit)
      = { unit := u, ctr := ctrOf hw u, metric := 0, bad := decide (5 < u.toNat / 2 ^ 45), dmax := 0 } := by
  have word : ∀ j < 4, SoftWord (slice ((lichEncode hw u).map softBit) (24 * j) (24 * j + 24))
      (golay hw (unitWord u j)) := fun j hj k hk => by
    have hin : 24 * j + k < (lichEncode hw u).length := by rw [lichEncode_length]; omega
    rw [List.getD_eq_getElem?_getD, slice_getElem?, if_pos (by omega), List.getElem?_map,
      List.getElem?_eq_getElem hin, ← lichEncode_getD hw u hj hk, List.getD_eq_getElem _ _ hin]
    rfl
  have soft := fun j (hj : j < 4) => golaySoft_image (word j hj)
  have sliced := fun j (hj : j < 4) => slicedWord_softWord (word j hj)
  have near : ∀ c : BitVec 24, hamming c c = 0 := fun c => by
    rw [hamming, BitVec.xor_self]
    exact popcount_zero 24
  have unit := unit_eq_words u
  rw [fourWords_assoc] at unit
  simp only [lichSoftDecode, soft 0 (by decide), soft 1 (by decide), soft 2 (by decide), soft 3 (by decide),
    sliced 0 (by decide), sliced 1 (by decide), sliced 2 (by decide), sliced 3 (by decide), near, unit,
    ctrOf_hw_toNat]
  rfl

end Sys2Proof.Machine
end

section
/-! # A noise-free frame through the pipelines (49_pipeline_bert.md R323 to R328; O59)

What each transmitter puts into its frame, what each receiver makes of the soft bits behind the front end, and the two
together by the round trips of the codes. -/

namespace Sys2Proof.Machine

/-! ## The transmitters (R323, R325, R327) -/

/-- The LSF in IB[0..28) with its CRC (47_lsf_meta.md R250). -/
def State.lsfWithCrc (s : State) : Bytes := s.ibytes 0 28 ++ beBytes 2 (crc16 (s.ibytes 0 28)).toNat

/-- The LICH unit in IB[0..6). -/
def State.lichUnit (s : State) : BitVec 48 := BitVec.ofNat 48 (beNat (s.ibytes 0 6))

section Transmit

variable {s t : State}

theorem lsfTx_frame (h : exec .lsfTx s = .next t) :
    ObHolds t 0 (txFrame hw syncLsf (puncture hw.punctP1 (conv (bits s.lsfWithCrc)))) := by
  rw [(exec_eq_next_iff ..).1 h]
  exact .write s 0 _

theorem strTx_frame (h : exec .strTx s = .next t) :
    ObHolds t 0 (txFrame hw syncStream
      (lichEncode hw s.lichUnit ++ puncture hw.punctP2 (conv (bits (s.ibytes 6 24))))) := by
  rw [(exec_eq_next_iff ..).1 h]
  exact .write s 0 _

theorem pktTx_frame (h : exec .pktTx s = .next t) :
    ObHolds t 0 (txFrame hw syncPacket (puncture hw.punctP3 (conv ((bits (s.ibytes 0 26)).take 206)))) := by
  rw [(exec_eq_next_iff ..).1 h]
  exact .write s 0 _

end Transmit

/-! ## The receivers (R324, R326, R328) -/

section Receive

variable {s : State} {v : Bits} {m : Nat}

/-- LSF_RX writes the decoded LSF, its fields and the metric, and checks it (R324). -/
theorem lsfRx_yields (hr : viterbi hw.punctP1 240 (rxFront hw (s.ibytes 0 384)) = (v, m)) :
    Yields .lsfRx s (lsfVerdict s.v2En s.v3En (pack v)) [0, 1, 2, 3, 4] 30 fun t =>
      ObHolds t 0 (pack v) ∧ ResIs t 0 (beNat (slice (pack v) 12 14))
      ∧ ResIs t 1 (versionCode (beNat (slice (pack v) 12 14))) ∧ ResIs t 2 (metaCode (beNat (slice (pack v) 12 14)))
      ∧ ResIs t 3 m ∧ ResIs t 4 (crc16 (slice (pack v) 0 28)).toNat := by
  obtain ⟨hv, hm⟩ := viterbi_result hr
  have hrun : commandRun .lsfRx s
      = ((((((s.obWrite 0 (pack v)).setRes 0 ((lsfType (pack v)).setWidth 32)).setResNat 1
          (detect (lsfType (pack v))).code).setResNat 2 (metatag (lsfType (pack v))).code).setResNat 3 m).setRes 4
          ((crc16 (slice (pack v) 0 28)).setWidth 32)).raiseIf (s.lsfCheck (pack v)) := by
    show lsfRxRun hw s = _
    simp only [lsfRxRun, hr]
  rw [← lsfType_toNat, ← detect_code, ← metatag_code, ← State.lsfCheck_eq]
  refine Yields.of_run _ (hrun ▸ exec_eq_finish .lsfRx s) rfl (HostSideKept.refl s) rfl ⟨rfl, rfl, rfl⟩
    (fun n hn => ?kept) (fun a ha => ?bytes)
    ⟨by simp, .of_setWidth (by decide) (by simp), .of_ofNat (detect_code _ ▸ versionCode_lt _) (by simp),
      .of_ofNat (metatag_code_lt _) (by simp), .of_ofNat (by omega) (by simp), .of_setWidth (by decide) (by simp)⟩
  case kept =>
    obtain ⟨h0, h1, h2, h3, h4⟩ : n ≠ 0 ∧ n ≠ 1 ∧ n ≠ 2 ∧ n ≠ 3 ∧ n ≠ 4 := by simpa using hn
    simp [h0, h1, h2, h3, h4]
  case bytes => exact State.obWrite_byteAt_of_not _ 0 _ a (by rwa [pack_length, hv])

/-! STR_RX writes its results in one operation, whatever FEED is. -/

theorem State.writeStream_resReg (d : LichDecoded) (B : Bytes) (n : Fin 8) :
    (s.writeStream d B m).resReg n
      = if n = 5 then d.ctr.setWidth 32 else if n = 4 then BitVec.ofNat 32 ((B.getD 0 0).toNat / 128)
        else if n = 3 then BitVec.ofNat 32 m else if n = 2 then BitVec.ofNat 32 d.bad.toNat
        else if n = 1 then BitVec.ofNat 32 d.metric
        else if n = 0 then BitVec.ofNat 32 (beNat (slice B 0 2)) else s.resReg n := by
  simp only [State.writeStream, State.setRes_resReg, State.setResNat_resReg, State.obWrite_resReg, msb_toNat]

theorem State.writeStream_byteAt (d : LichDecoded) (B : Bytes) (a : Nat) :
    (s.writeStream d B m).byteAt a = ((s.obWrite 0 (beBytes 6 d.unit.toNat)).obWrite 6 B).byteAt a := by
  simp only [State.writeStream, State.setRes_byteAt, State.setResNat_byteAt]

theorem State.writeStream_obHolds (d : LichDecoded) (B : Bytes) :
    ObHolds (s.writeStream d B m) 0 (beBytes 6 d.unit.toNat) ∧ ObHolds (s.writeStream d B m) 6 B := by
  simp only [State.writeStream, obHolds_setRes, obHolds_setResNat]
  exact ⟨(ObHolds.write s 0 _).keep (.inl (by simp)), .write _ 6 B⟩

theorem State.writeStream_lich (d : LichDecoded) (B : Bytes) : (s.writeStream d B m).lich = s.lich := by
  simp only [State.writeStream, State.setRes_lich, State.setResNat_lich, State.obWrite_lich]

/-- STR_RX with FEED = 0 writes the LICH unit, the payload and their fields (R326). -/
theorem strRx_yields {d : LichDecoded} (harg : (s.argReg 0).toNat < 2 ^ 16)
    (hd : lichSoftDecode hw (slice (rxFront hw (s.ibytes 0 384)) 0 96) = d) (hmetric : d.metric < 2 ^ 32)
    (hr : viterbi hw.punctP2 144 (slice (rxFront hw (s.ibytes 0 384)) 96 368) = (v, m)) :
    Yields .strRx s none [0, 1, 2, 3, 4, 5] 24 fun t =>
      ObHolds t 0 (beBytes 6 d.unit.toNat) ∧ ObHolds t 6 (pack v) ∧ ResIs t 0 (beNat (slice (pack v) 0 2))
      ∧ ResIs t 1 d.metric ∧ ResIs t 2 d.bad.toNat ∧ ResIs t 3 m ∧ ResIs t 4 (((pack v).getD 0 0).toNat / 128)
      ∧ ResIs t 5 d.ctr.toNat := by
  obtain ⟨hv, hm⟩ := viterbi_result hr
  have hfn : beNat (slice (pack v) 0 2) < 2 ^ 32 :=
    (beNat_lt _).trans_le (Nat.pow_le_pow_right (by decide) (by rw [slice_length]; omega) : _ ≤ 256 ^ 4)
  have hfeed : ¬ (s.argReg 0).getLsbD 16 = true := by
    rw [getLsbD_iff]
    omega
  have hrun : commandRun .strRx s = (s.writeStream d (pack v) m).ok := by
    show strRxRun hw s = _
    simp only [strRxRun, hd, hr, if_neg (State.not_argHigh_of_lt (harg.trans (by decide) : _ < 2 ^ 17)), if_neg hfeed]
  have hframe : CommandFrame .strRx s (s.writeStream d (pack v) m) := .writeStream .start (by simp [hv])
  have hlich := State.writeStream_lich (s := s) (m := m) d (pack v)
  obtain ⟨hunit, hpayload⟩ := State.writeStream_obHolds (s := s) (m := m) d (pack v)
  have hres := State.writeStream_resReg (s := s) (m := m) d (pack v)
  have hbytes := State.writeStream_byteAt (s := s) (m := m) d (pack v)
  have hbad : d.bad.toNat < 2 ^ 32 := (Bool.toNat_le _).trans_lt (by decide)
  have heot : ((pack v).getD 0 0).toNat / 128 < 2 ^ 32 :=
    (Nat.div_le_self _ _).trans_lt (((pack v).getD 0 0).isLt.trans (by decide))
  -- from here on only these facts about the written state count
  generalize s.writeStream d (pack v) m = u at hrun hframe hlich hunit hpayload hres hbytes
  refine Yields.of_run _ (hrun ▸ exec_eq_finish .strRx s) rfl hframe.host hframe.cmdcnt
    ⟨hlich, hframe.pkt (by decide), hframe.text (by decide)⟩ (fun n hn => ?kept) (fun a ha => ?bytes)
    ⟨by simp [hunit], by simp [hpayload], .of_ofNat hfn (by simp [hres]), .of_ofNat hmetric (by simp [hres]),
      .of_ofNat hbad (by simp [hres]), .of_ofNat (by omega) (by simp [hres]), .of_ofNat heot (by simp [hres]),
      .of_setWidth (by decide) (by simp [hres])⟩
  case kept =>
    obtain ⟨h0, h1, h2, h3, h4, h5⟩ : n ≠ 0 ∧ n ≠ 1 ∧ n ≠ 2 ∧ n ≠ 3 ∧ n ≠ 4 ∧ n ≠ 5 := by simpa using hn
    simp [hres, h0, h1, h2, h3, h4, h5]
  case bytes =>
    rw [State.ok_state, hbytes, State.obWrite_byteAt_of_not _ _ _ _ (by rw [pack_length, hv]; omega),
      State.obWrite_byteAt_of_not _ _ _ _ (by rw [beBytes_length]; omega)]

/-- PKT_RX writes the decoded chunk and the metric (R328). -/
theorem pktRx_yields (hr : viterbi hw.punctP3 206 (rxFront hw (s.ibytes 0 384)) = (v, m)) :
    Yields .pktRx s none [0, 1, 2] 26 fun t => ObHolds t 0 (pack v) ∧ ResIs t 0 m := by
  obtain ⟨hv, hm⟩ := viterbi_result hr
  have hrun : commandRun .pktRx s
      = ((((s.obWrite 0 (pack v)).setResNat 0 m).setResNat 1 (((pack v).getD 25 0).getLsbD 7).toNat).setRes 2
          ((((pack v).getD 25 0).extractLsb' 2 5).setWidth 32)).ok := by
    show pktRxRun hw s = _
    simp only [pktRxRun, hr]
  refine Yields.of_run _ (hrun ▸ exec_eq_finish .pktRx s) rfl (HostSideKept.refl s) rfl ⟨rfl, rfl, rfl⟩
    (fun n hn => ?kept) (fun a ha => ?bytes) ⟨by simp, .of_ofNat (by omega) (by simp)⟩
  case kept =>
    obtain ⟨h0, h1, h2⟩ : n ≠ 0 ∧ n ≠ 1 ∧ n ≠ 2 := by simpa using hn
    simp [h0, h1, h2]
  case bytes => exact State.obWrite_byteAt_of_not _ 0 _ a (by rwa [pack_length, hv])

end Receive

end Sys2Proof.Machine
end

section
/-! # Noise-free frames (49_pipeline_bert.md R323 to R328; O59) -/

namespace Sys2Proof.Machine

section RoundTrip

variable {s t s' : State}

/-! ## LSF -/

@[simp] theorem State.lsfWithCrc_length (s : State) : s.lsfWithCrc.length = 30 := by simp [State.lsfWithCrc]

/-- An LSF with its CRC passes the CRC check, so the version decides (47_lsf_meta.md R251). -/
theorem lsfVerdict_lsfWithCrc (v2 v3 : Bool) (s : State) :
    lsfVerdict v2 v3 s.lsfWithCrc
      = if versionCode (beNat (s.ibytes 12 14)) = 0 then (if v2 then none else some (.unsupportedVersion .v2))
        else (if v3 then none else some (.unsupportedVersion .v3)) := by
  have covered : slice s.lsfWithCrc 0 28 = s.ibytes 0 28 := by
    rw [State.lsfWithCrc, slice_append_left _ _ (by simp), State.slice_ibytes _ _ _ _ _ (by decide)]
  have type : slice s.lsfWithCrc 12 14 = s.ibytes 12 14 := by
    rw [State.lsfWithCrc, slice_append_left _ _ (by simp), State.slice_ibytes _ _ _ _ _ (by decide), Nat.zero_add,
      Nat.zero_add]
  have trailing : beNat (slice s.lsfWithCrc 28 30) = (crc16 (s.ibytes 0 28)).toNat := by
    have crc := slice_append_right (s.ibytes 0 28) (beBytes 2 (crc16 (s.ibytes 0 28)).toNat)
    rw [State.ibytes_length, beBytes_length] at crc
    rw [State.lsfWithCrc, crc, beNat_beBytes]
    exact Nat.mod_eq_of_lt (crc16 (s.ibytes 0 28)).isLt
  have nibble : beNat (s.ibytes 12 14) / 4096 < 16 := by
    have := beNat_lt (s.ibytes 12 14)
    rw [State.ibytes_length] at this
    omega
  have version : versionCode (beNat (s.ibytes 12 14)) = 0 ↔ beNat (s.ibytes 12 14) / 4096 = 0 := by
    rw [versionCode, Nat.mod_eq_of_lt nibble]
    split <;> simp [*]
  simp only [lsfVerdict, covered, type, trailing, ne_eq, not_true_eq_false, if_false, version]

theorem lsfRx_of_lsfTx (ht : exec .lsfTx s = .next t) (himage : SoftImage t s' 16 384) :
    viterbi hw.punctP1 240 (rxFront hw (s'.ibytes 0 384)) = (bits s.lsfWithCrc, 0) := by
  have hbits : (bits s.lsfWithCrc).length = 240 := by simp
  obtain ⟨fills, -⟩ := paramsOk_hw.frameSizes
  rw [rxFront_of_txFrame (fills _ hbits) (lsfTx_frame ht) himage]
  exact viterbi_image (keepsEachStep_schedMask (sched := 1) (by decide)) hbits

/-! ## Stream -/

theorem State.lichUnit_toNat (s : State) : s.lichUnit.toNat = beNat (s.ibytes 0 6) := by
  have := beNat_lt (s.ibytes 0 6)
  rw [State.ibytes_length] at this
  rw [State.lichUnit, BitVec.toNat_ofNat, Nat.mod_eq_of_lt (this.trans_le (by decide))]

theorem State.lichUnit_bytes (s : State) : beBytes 6 s.lichUnit.toNat = s.ibytes 0 6 := by
  have := beBytes_beNat (s.ibytes 0 6)
  rwa [State.ibytes_length, ← State.lichUnit_toNat] at this

/-- The counter of a unit is the top of its first byte (48_stream_packet_ip.md R281). -/
theorem State.lichUnit_counter (s : State) : s.lichUnit.toNat / 2 ^ 45 = (s.ib 0).toNat / 32 := by
  have first : s.ibytes 0 6 = s.ib 0 :: s.ibytes 1 6 := (s.ibytes_append 0 1 6 (by decide) (by decide)).symm
  have := beNat_lt (s.ibytes 1 6)
  rw [State.ibytes_length] at this
  rw [State.lichUnit_toNat, first, beNat_cons, State.ibytes_length]
  omega

/-- The front end gives the LICH unit before the payload (R326). -/
theorem strRx_of_strTx (ht : exec .strTx s = .next t) (himage : SoftImage t s' 16 384) :
    lichSoftDecode hw (slice (rxFront hw (s'.ibytes 0 384)) 0 96)
        = { unit := s.lichUnit, ctr := ctrOf hw s.lichUnit, metric := 0
            bad := decide (5 < s.lichUnit.toNat / 2 ^ 45), dmax := 0 }
    ∧ viterbi hw.punctP2 144 (slice (rxFront hw (s'.ibytes 0 384)) 96 368) = (bits (s.ibytes 6 24), 0) := by
  have hbits : (bits (s.ibytes 6 24)).length = 144 := by simp
  obtain ⟨-, fills, -⟩ := paramsOk_hw.frameSizes
  have hcode : (puncture hw.punctP2 (conv (bits (s.ibytes 6 24)))).length = 272 := fills _ hbits
  have lich : ((lichEncode hw s.lichUnit).map softBit).length = 96 := by simp
  have code : ((puncture hw.punctP2 (conv (bits (s.ibytes 6 24)))).map softBit).length = 272 := by simpa using hcode
  have left := slice_append_left ((puncture hw.punctP2 (conv (bits (s.ibytes 6 24)))).map softBit) 0 lich.ge
  have right := slice_append_right ((lichEncode hw s.lichUnit).map softBit)
    ((puncture hw.punctP2 (conv (bits (s.ibytes 6 24)))).map softBit)
  rw [lich, code] at right
  rw [rxFront_of_txFrame (by simp [hcode]) (strTx_frame ht) himage, List.map_append, right, left]
  refine ⟨?_, viterbi_image (keepsEachStep_schedMask (sched := 2) (by decide)) hbits⟩
  rw [slice, List.drop_zero, Nat.sub_zero, ← lich, List.take_length]
  exact lichSoftDecode_image s.lichUnit

/-! ## Packet -/

/-- The first 206 bits of a chunk are 25 bytes and six bits. -/
theorem State.chunkBits_eq (s : State) :
    (bits (s.ibytes 0 26)).take 206 = bits (s.ibytes 0 25) ++ (bits [s.ib 25]).take 6 := by
  rw [← s.ibytes_append 0 25 26 (by decide) (by decide), bits_append, List.take_append,
    List.take_of_length_le (by simp), bits_length, State.ibytes_length]
  rfl

theorem State.pack_chunkBits (s : State) :
    pack ((bits (s.ibytes 0 26)).take 206) = s.ibytes 0 25 ++ [s.ib 25 &&& 0xFC] := by
  rw [State.chunkBits_eq, pack_bits_append, pack_take_six]

theorem clearedLowBits_toNat (b : Byte) : (b &&& 0xFC).toNat = b.toNat / 4 * 4 := by
  revert b
  decide

theorem pktRx_of_pktTx (ht : exec .pktTx s = .next t) (himage : SoftImage t s' 16 384) :
    viterbi hw.punctP3 206 (rxFront hw (s'.ibytes 0 384)) = ((bits (s.ibytes 0 26)).take 206, 0) := by
  have hbits : ((bits (s.ibytes 0 26)).take 206).length = 206 := by simp
  obtain ⟨-, -, fills, -⟩ := paramsOk_hw.frameSizes
  rw [rxFront_of_txFrame (fills _ hbits) (pktTx_frame ht) himage]
  exact viterbi_image (keepsEachStep_schedMask (sched := 3) (by decide)) hbits

end RoundTrip

/-- Settles O59: behind the front end each receiver has the soft image of what was coded, and its decoders give that
back. -/
theorem pipelineRoundTrip : Obligations.PipelineRoundTrip := by
  refine ⟨fun s t s' ht himage => ?lsf, fun s t s' ht himage harg => ?stream, fun s t s' ht himage => ?packet⟩
  case lsf =>
    have hyields := lsfRx_yields (lsfRx_of_lsfTx ht himage)
    rw [pack_bits, lsfVerdict_lsfWithCrc] at hyields
    refine hyields.imp ?_
    rintro t' ⟨hob, -, -, -, hmetric, -⟩
    obtain ⟨hcovered, hcrc⟩ := hob.of_append
    rw [State.ibytes_length] at hcrc
    exact ⟨hcovered, hcrc, hmetric⟩
  case stream =>
    obtain ⟨hlich, hpayload⟩ := strRx_of_strTx ht himage
    have hyields := strRx_yields harg hlich (Nat.two_pow_pos 32) hpayload
    rw [pack_bits, State.lichUnit_bytes, ctrOf_hw_toNat, State.lichUnit_counter] at hyields
    refine hyields.imp ?_
    rintro t' ⟨hunit, hob, hfn, hmetric, hbad, hcost, heot, hctr⟩
    have whole := hunit.append (C := s.ibytes 6 24) (by simpa using hob)
    rw [s.ibytes_append 0 6 24 (by decide) (by decide)] at whole
    rw [State.slice_ibytes s 6 24 0 2 (by decide)] at hfn
    rw [State.ibytes_getD s 6 24 0 (by decide)] at heot
    refine ⟨whole, hfn, hmetric, hcost, ?_, heot, hctr⟩
    rwa [Bool.toNat, Bool.cond_decide] at hbad
  case packet =>
    have hyields := pktRx_yields (pktRx_of_pktTx ht himage)
    rw [State.pack_chunkBits] at hyields
    refine hyields.imp ?_
    rintro t' ⟨hob, hmetric⟩
    obtain ⟨hchunk, hlast⟩ := hob.of_append
    refine ⟨hchunk, ?_, hmetric⟩
    have hbyte := hlast 0 Nat.zero_lt_one
    rw [State.ibytes_length] at hbyte
    rw [← clearedLowBits_toNat]
    exact congrArg BitVec.toNat hbyte

end Sys2Proof.Machine
end

section
/-! # INTLV and RAND (46_interleave_randomize_prbs.md R231 to R236; O39) -/

namespace Sys2Proof.Machine

/-! ## Commands that write to OBUF only -/

/-- A byte of OBUF where a byte sequence was written. -/
theorem ObHolds.ob_getD {t : State} {B : Bytes} (h : ObHolds t 0 B) {k : Nat} (hk : k < B.length) :
    t.ob k = B.getD k 0 := by
  rw [List.getD_eq_getElem _ _ hk, ← h k hk, Nat.zero_add]

/-- A run that ends without an exception and has written OB[0..n) only. -/
theorem Yields.of_obWrite {i : Instr} {s : State} {B : Bytes} {n : Nat} (hrun : commandRun i s = (s.obWrite 0 B).ok)
    (hB : B.length = n) : Yields i s none [] n fun t => ObHolds t 0 B := by
  subst hB
  exact Yields.of_run _ (hrun ▸ exec_eq_finish i s) rfl (HostSideKept.refl s) rfl ⟨rfl, rfl, rfl⟩ (fun _ _ => rfl)
    (fun a ha => State.obWrite_byteAt_of_not _ 0 _ a ha) ((obHolds_complete ..).2 (.write s 0 B))

/-- INTLV and RAND take one length only. -/
theorem toNat_ne_frameBits {len : BitVec 16} (h : len ≠ 368) : len.toNat ≠ frameBits :=
  fun heq => h (BitVec.eq_of_toNat_eq heq)

/-! ## INTLV (R231, R235) -/

theorem intlv_hard_yields (s : State) :
    Yields (.intlv 368 false) s none [] 46 fun t => ∀ i < 368, t.obBit i = s.ibBit (qpp i) := by
  refine (Yields.of_obWrite (B := pack (interleave false (bits (s.ibytes 0 46)))) rfl (by simp)).imp fun t ht i hi => ?_
  rw [ht.obBit_pack (by simp; omega), interleave_getD false _ i hi, State.bits_ibytes_getD s 46 _ (qpp_lt i)]

theorem intlv_soft_yields (s : State) :
    Yields (.intlv 368 true) s none [] 368 fun t => ∀ i < 368, t.ob i = s.ib (qpp i) := by
  refine (Yields.of_obWrite (B := interleave 0 (s.ibytes 0 368)) rfl (by simp)).imp fun t ht i hi => ?_
  rw [ht.ob_getD (by simpa using hi), interleave_getD 0 _ i hi, State.ibytes_getD s 0 368 _ (qpp_lt i), Nat.zero_add]

theorem intlv_badLength (s : State) {len : BitVec 16} (soft : Bool) (h : len ≠ 368) :
    OnlyRaises (.intlv len soft) s (.invalidInput .badLength) :=
  .of_run (exec_eq_finish (.intlv len soft) s) (if_pos (toNat_ne_frameBits h))

/-! ## RAND (R232, R233, R236) -/

theorem rand_hard_yields (s : State) :
    Yields (.rand 368 false) s none [] 46 fun t =>
      ∀ i < 368, t.obBit i = (s.ibBit i ^^ (randBits hw).getD i false) := by
  refine (Yields.of_obWrite (B := pack (randomizeHard hw (bits (s.ibytes 0 46)))) rfl (by simp)).imp fun t ht i hi => ?_
  rw [ht.obBit_pack (by simp; omega), randomizeHard_getD _ i hi (by simp), State.bits_ibytes_getD s 46 i hi]

/-- The mirror image of a soft value. -/
theorem mirrored_toNat (v : Byte) : (255 - v).toNat = 255 - v.toNat := by
  bv_omega

theorem rand_soft_yields (s : State) :
    Yields (.rand 368 true) s none [] 368 fun t =>
      ∀ i < 368, (t.ob i).toNat
        = if (randBits hw).getD i false then 255 - (s.ib i).toNat else (s.ib i).toNat := by
  refine (Yields.of_obWrite (B := randomizeSoft hw (s.ibytes 0 368)) rfl (by simp)).imp fun t ht i hi => ?_
  rw [ht.ob_getD (by simpa using hi), randomizeSoft_getD _ i hi (by simp), State.ibytes_getD s 0 368 i hi, Nat.zero_add,
    apply_ite BitVec.toNat, mirrored_toNat]

theorem rand_badLength (s : State) {len : BitVec 16} (soft : Bool) (h : len ≠ 368) :
    OnlyRaises (.rand len soft) s (.invalidInput .badLength) :=
  .of_run (exec_eq_finish (.rand len soft) s) (if_pos (toNat_ne_frameBits h))

/-- A sequence of 368 elements is known by its elements. -/
theorem eq_of_getD_eq {α : Type} {x y : List α} (z : α) (hx : x.length = 368) (hy : y.length = 368)
    (h : ∀ i < 368, x.getD i z = y.getD i z) : x = y := by
  refine List.ext_getElem (hx.trans hy.symm) fun i hi hi' => ?_
  rw [← List.getD_eq_getElem _ z hi, ← List.getD_eq_getElem _ z hi']
  exact h i (hx ▸ hi)

/-- A bit flipped twice is the bit again. -/
theorem randomizeHard_randomizeHard {x : Bits} (hx : x.length = 368) : randomizeHard hw (randomizeHard hw x) = x := by
  have hlen : (randomizeHard hw x).length = 368 := by simp [hx]
  refine eq_of_getD_eq false (by simp [hlen]) hx fun i hi => ?_
  rw [randomizeHard_getD _ i hi hlen, randomizeHard_getD _ i hi hx, Bool.xor_assoc, Bool.xor_self, Bool.xor_false]

/-- A soft value mirrored twice is the value again. -/
theorem randomizeSoft_randomizeSoft {x : Bytes} (hx : x.length = 368) :
    randomizeSoft hw (randomizeSoft hw x) = x := by
  have hlen : (randomizeSoft hw x).length = 368 := by simp [hx]
  refine eq_of_getD_eq 0 (by simp [hlen]) hx fun i hi => ?_
  rw [randomizeSoft_getD _ i hi hlen, randomizeSoft_getD _ i hi hx]
  split
  · exact sub_sub_cancel ..
  · rfl

/-- Settles O39: the run of each command position by position, and the permutation, the flip and the mirroring each
undone by doing it again. -/
theorem intlvAndRandCommands : Obligations.IntlvAndRandCommands := by
  refine ⟨⟨fun s => ⟨intlv_hard_yields s, intlv_soft_yields s, fun _ soft h => intlv_badLength s soft h⟩,
      fun i hi => ⟨qpp_lt i, qpp_qpp hi⟩⟩,
    rfl, fun s => ⟨?hard, ?soft, fun _ soft h => rand_badLength s soft h⟩,
    fun _ => randomizeHard_randomizeHard, fun _ => randomizeSoft_randomizeSoft⟩
  case hard =>
    have hyields := rand_hard_yields s
    simp only [randBits_getD] at hyields
    exact hyields
  case soft =>
    have hyields := rand_soft_yields s
    simp only [randBits_getD] at hyields
    exact hyields

end Sys2Proof.Machine
end

section
/-! # PRBS_GEN and BER_CNT (46_interleave_randomize_prbs.md R234, R237, R238; O40)

The register of the generator holds the nine bits before the next one, the newest in bit 0: its recurrence is read
through `prbsTap`, which looks back into the bits generated and, past them, into the seed. -/

namespace Sys2Proof.Machine

/-! ## The bit k steps back (R234) -/

/-- The bit k steps before bit t of the sequence that is generated from register `r`: a bit of `a`, or one of `r`. -/
def prbsTap (r : BitVec 9) (a : Bits) (t k : Nat) : Bool :=
  if k ≤ t then a.getD (t - k) false else r.getLsbD (k - 1 - t)

/-- The register after a bit was shifted in. -/
def prbsShift (r : BitVec 9) (b : Bool) : BitVec 9 := (r <<< 1) ||| (BitVec.ofBool b).setWidth 9

/-- The next bit: bits 8 and 4 of the register, which are those nine and five steps back. -/
def prbsNext (r : BitVec 9) : Bool := r.getLsbD 8 ^^ r.getLsbD 4

/-- This hardware feeds the next bit back into the register (R234, Fibonacci form). -/
theorem prbs_hw_succ (n : Nat) (r : BitVec 9) :
    prbs hw (n + 1) r
      = (prbsNext r :: (prbs hw n (prbsShift r (prbsNext r))).1, (prbs hw n (prbsShift r (prbsNext r))).2) := rfl

@[simp] theorem prbsShift_newest (r : BitVec 9) (b : Bool) : (prbsShift r b).getLsbD 0 = b := by
  simp [prbsShift]

/-- Every other bit of the register moves one place up. -/
theorem prbsShift_older (r : BitVec 9) (b : Bool) {j : Nat} (hj : j < 8) :
    (prbsShift r b).getLsbD (j + 1) = r.getLsbD j := by
  have hin : j + 1 < 9 := by omega
  simp [prbsShift, hin, BitVec.getLsbD_eq_getElem (Nat.lt_succ_of_lt hj)]

/-- One step moves the newest bit from the sequence to the register. -/
theorem prbsTap_shift (r : BitVec 9) (b : Bool) (a : Bits) (t : Nat) {k : Nat} (hk : k ≤ 9) :
    prbsTap (prbsShift r b) a t k = prbsTap r (b :: a) (t + 1) k := by
  unfold prbsTap
  rcases Nat.lt_trichotomy k (t + 1) with h | rfl | h
  · rw [if_pos (by omega), if_pos (by omega), show t + 1 - k = t - k + 1 by omega, List.getD_cons_succ]
  · rw [if_neg (by omega), if_pos le_rfl, Nat.add_sub_cancel, Nat.sub_self, Nat.sub_self, prbsShift_newest,
      List.getD_cons_zero]
  · rw [if_neg (by omega), if_neg (by omega), show k - 1 - t = k - 1 - (t + 1) + 1 by omega,
      prbsShift_older _ _ (by omega)]

/-- Each bit generated is the sum of those nine and five steps back (R234). -/
theorem prbs_getD (n : Nat) (r : BitVec 9) {i : Nat} (hi : i < n) :
    (prbs hw n r).1.getD i false = (prbsTap r (prbs hw n r).1 i 9 ^^ prbsTap r (prbs hw n r).1 i 5) := by
  induction n generalizing r i with
  | zero => exact absurd hi (Nat.not_lt_zero i)
  | succ n ih =>
    rw [prbs_hw_succ]
    cases i with
    | zero => rfl
    | succ i =>
      rw [List.getD_cons_succ, ih _ (Nat.lt_of_succ_lt_succ hi), prbsTap_shift _ _ _ _ le_rfl,
        prbsTap_shift _ _ _ _ (by decide)]

/-- The register after the n bits holds the nine bits before the next (R237). -/
theorem prbs_register (n : Nat) (r : BitVec 9) {j : Nat} (hj : j < 9) :
    (prbs hw n r).2.getLsbD j = prbsTap r (prbs hw n r).1 n (j + 1) := by
  induction n generalizing r with
  | zero => rfl
  | succ n ih => rw [prbs_hw_succ, ih, prbsTap_shift _ _ _ _ hj]

/-! ## PRBS_GEN (R237) -/

theorem prbsGen_badLength (s : State) {len : BitVec 16} (h : 8192 < len.toNat) :
    OnlyRaises (.prbsGen len) s (.invalidInput .badLength) :=
  .of_run (exec_eq_finish (.prbsGen len) s) (if_pos h)

theorem prbsGen_fieldRange {s : State} {len : BitVec 16} (hlen : len.toNat ≤ 8192) (h : 512 ≤ (s.argReg 0).toNat) :
    OnlyRaises (.prbsGen len) s (.invalidInput .fieldRange) :=
  .of_run (exec_eq_finish (.prbsGen len) s)
    ((if_neg (not_lt.2 hlen)).trans (if_pos ((s.argHigh_ne_zero_iff 0 9).2 h)))

/-- A run that ends without an exception and has written a packed bit string and RES0 only. -/
theorem Yields.of_pack_setRes {i : Instr} {s : State} {c : Bits} {v : Word}
    (hrun : commandRun i s = ((s.obWrite 0 (pack c)).setRes 0 v).ok) :
    Yields i s none [0] ((c.length + 7) / 8) fun t =>
      (∀ k < 8 * ((c.length + 7) / 8), t.obBit k = c.getD k false) ∧ t.resReg 0 = v := by
  have hob : ObHolds (((s.obWrite 0 (pack c)).setRes 0 v).complete none) 0 (pack c) := by simp
  refine Yields.of_run _ (hrun ▸ exec_eq_finish i s) rfl (HostSideKept.refl s) rfl ⟨rfl, rfl, rfl⟩
    (fun m hm => ?kept) (fun a ha => ?bytes) ?post
  case kept =>
    have hm0 : m ≠ 0 := by simpa using hm
    simp [hm0]
  case bytes => exact State.obWrite_byteAt_of_not _ 0 _ a (by rwa [pack_length])
  case post => exact ⟨fun k hk => hob.obBit_pack hk, by simp⟩

/-- PRBS_GEN writes the bits, the unused low bits 0, and the register after them. -/
theorem prbsGen_yields {s : State} {len : BitVec 16} (hlen : len.toNat ≤ 8192) (hseed : (s.argReg 0).toNat < 512) :
    Yields (.prbsGen len) s none [0] ((len.toNat + 7) / 8) fun t =>
      (∀ k < 8 * ((len.toNat + 7) / 8), t.obBit k = (prbs hw len.toNat (s.argField 0 9)).1.getD k false)
      ∧ t.resReg 0 = (prbs hw len.toNat (s.argField 0 9)).2.setWidth 32 := by
  have hfits : ¬ len.toNat > 8 * obufSize := not_lt.2 hlen
  have hrun : commandRun (.prbsGen len) s
      = ((s.obWrite 0 (pack (prbs hw len.toNat (s.argField 0 9)).1)).setRes 0
          ((prbs hw len.toNat (s.argField 0 9)).2.setWidth 32)).ok := by
    show prbsGenRun hw len s = _
    rw [prbsGenRun, if_neg hfits, if_neg (State.not_argHigh_of_lt hseed)]
  have hyields := Yields.of_pack_setRes hrun
  rwa [prbs_length] at hyields

/-- The bits k steps back, read in OBUF and, past its start, in the seed register. -/
theorem prbsTap_of_obuf {s t : State} {a : Bits} (hob : ∀ k < 8 * ((a.length + 7) / 8), t.obBit k = a.getD k false)
    {i k : Nat} (hi : i ≤ a.length) (hk : 0 < k) (hk9 : k ≤ 9) :
    prbsTap (s.argField 0 9) a i k = if k ≤ i then t.obBit (i - k) else (s.argReg 0).getLsbD (k - 1 - i) := by
  unfold prbsTap
  split
  · rw [hob (i - k) (by omega)]
  · rw [State.argField, BitVec.getLsbD_setWidth, decide_eq_true (by omega), Bool.true_and]

/-! ## BER_CNT (R238) -/

theorem berCnt_badLength (s : State) {len : BitVec 16} (h : 4096 < len.toNat) :
    OnlyRaises (.berCnt len) s (.invalidInput .badLength) :=
  .of_run (exec_eq_finish (.berCnt len) s) (if_pos h)

/-- A bit of the upper half of IBUF. -/
theorem State.ibBit_upper (s : State) (i : Nat) : s.ibBit (4096 + i) = (s.ib (512 + i / 8)).getLsbD (7 - i % 8) := by
  rw [State.ibBit, show (4096 + i) / 8 = 512 + i / 8 by omega, show (4096 + i) % 8 = i % 8 by omega]

/-- The two halves of IBUF, compared bit by bit. -/
theorem bitErrors_halves (s : State) {n : Nat} (h : n ≤ 4096) :
    bitErrors n (bits (s.ibytes 0 512)) (bits (s.ibytes 512 1024))
      = (List.range n).countP fun i => s.ibBit i != s.ibBit (4096 + i) := by
  refine List.countP_congr fun i hi => ?_
  have hin : i < n := List.mem_range.1 hi
  rw [State.bits_ibytes_getD s 512 i (by omega), bits_getD, State.ibytes_getD s 512 1024 _ (by omega),
    State.ibBit_upper]

theorem berCnt_yields (s : State) {len : BitVec 16} (h : len.toNat ≤ 4096) :
    Yields (.berCnt len) s none [0, 1] 0 fun t =>
      ResIs t 0 ((List.range len.toNat).countP fun i => s.ibBit i != s.ibBit (4096 + i)) ∧ ResIs t 1 len.toNat := by
  have hcount : bitErrors len.toNat (bits (s.ibytes 0 512)) (bits (s.ibytes 512 1024)) ≤ len.toNat :=
    List.countP_le_length.trans_eq List.length_range
  rw [← bitErrors_halves s h]
  exact Yields.of_results (if_neg (not_lt.2 h)) rfl (fun m => by simp +contextual)
    ⟨.of_ofNat (by omega) (by simp), .of_ofNat (by omega) (by simp)⟩

/-- Settles O40: the generator's recurrence and register read in what PRBS_GEN writes, and the count of BER_CNT. -/
theorem prbsAndBerCommands : Obligations.PrbsAndBerCommands := by
  refine ⟨fun s len => ⟨fun hlen hseed => ?_, fun h => prbsGen_badLength s h, fun hlen h => prbsGen_fieldRange hlen h⟩,
    fun s len => ⟨fun h => berCnt_yields s h, fun h => berCnt_badLength s h⟩⟩
  refine (prbsGen_yields hlen hseed).imp ?_
  rintro t ⟨hob, hres⟩
  have ha := prbs_length hw len.toNat (s.argField 0 9)
  have tap : ∀ i ≤ len.toNat, ∀ k, 0 < k → k ≤ 9 → prbsTap (s.argField 0 9) (prbs hw len.toNat (s.argField 0 9)).1 i k
      = if k ≤ i then t.obBit (i - k) else (s.argReg 0).getLsbD (k - 1 - i) := fun i hi k hk hk9 =>
    prbsTap_of_obuf (ha.symm ▸ hob) (ha.symm ▸ hi) hk hk9
  refine ⟨fun i hi => ?recurrence, fun k hn hk => ?padding, fun j hj => ?register, ?bound⟩
  case recurrence =>
    rw [hob i (by omega), prbs_getD _ _ hi, tap i hi.le 9 (by decide) le_rfl, tap i hi.le 5 (by decide) (by decide)]
  case padding => rw [hob k hk, List.getD_eq_default _ _ (ha.trans_le hn)]
  case register =>
    rw [hres, BitVec.getLsbD_setWidth, decide_eq_true (by omega), Bool.true_and, prbs_register _ _ hj,
      tap _ le_rfl _ (Nat.succ_pos j) hj]
  case bound =>
    rw [hres, BitVec.toNat_setWidth_of_le (by decide)]
    exact BitVec.isLt _

end Sys2Proof.Machine
end

section
/-! # A step of the engine and the host's accesses (60_exceptions.md R350, R353, R356, R366, R367,
70_reset_and_hazards.md R380 to R385; O1, O5, O6, O8, O9, O14, O15) -/

namespace Sys2Proof.Machine

/-! ## The engine's turn (60_exceptions.md R350) -/

theorem step_of_decode {s : State} {i : Instr} (hturn : s.engineTurn = true) (hdecode : decode s.cmd = .ok i) :
    step s = exec i s := by
  rw [step, if_pos hturn, engineStep, hdecode]

theorem step_of_decode_error {s : State} {e : IllegalCommand} (hturn : s.engineTurn = true)
    (hdecode : decode s.cmd = .error e) : step s = .next (s.complete (some (.illegalCommand e))) := by
  rw [step, if_pos hturn, engineStep, hdecode]
  rfl

/-- A word placed by `withFetchWord` is in flight with no host event before it (log 4). -/
theorem State.withFetchWord_engineTurn (s : State) (nbits w : Nat) : (s.withFetchWord nbits w).engineTurn = true := rfl

/-- The table's decoder reads the word that `withFetchWord` latches. -/
theorem decode_of_decodeTableWord {nbits w : Nat} {i : Instr} (h : decodeTableWord nbits w = some i) :
    decode (BitVec.ofNat 32 (w % 2 ^ nbits)) = .ok i := by
  revert h
  rw [decodeTableWord]
  cases decode (BitVec.ofNat 32 (w % 2 ^ nbits)) <;> simp [Except.toOption]

/-- Settles O1: the engine's turn is `engineStep`, and a word placed by `withFetchWord` makes it the engine's turn. -/
theorem stepRunsDecodedCommand : Obligations.StepRunsDecodedCommand :=
  ⟨fun _ _ => step_of_decode, fun s nbits w _ h =>
    step_of_decode (s.withFetchWord_engineTurn nbits w) (decode_of_decodeTableWord h)⟩

/-- Completion alone keeps all that a command may write. -/
theorem State.complete_completed (s : State) (e : Option Err) : Completed s (s.complete e) e :=
  .of_kept (HostSideKept.refl s) rfl e

/-- Settles O5: an illegal word completes and writes nothing but STATUS and CMDCNT. -/
theorem illegalWordCompletes : Obligations.IllegalWordCompletes := by
  refine ⟨fun s e hturn hdecode => ⟨_, step_of_decode_error hturn hdecode, s.complete_completed _, ⟨rfl, rfl, rfl⟩,
    fun _ _ => rfl, fun _ _ => rfl, rfl, ?lastop, ?sub⟩, fun w => ?total⟩
  case lastop => rw [State.lastop, BitVec.extractLsb'_toNat, Nat.shiftRight_zero]; rfl
  case sub => cases e <;> rfl
  case total =>
    cases hdecode : decode w with
    | ok i => exact .inl ⟨i, rfl, (wellFormed_and_encode_of_decode hdecode).1⟩
    | error e => exact .inr ⟨e, rfl⟩

/-- Settles O6: the pseudocode of a command stays inside its frame, and completion follows. -/
theorem everyCommandCompletes : Obligations.EveryCommandCompletes := fun i s =>
  have hframe := commandRun_framed i s
  ⟨_, _, exec_eq_finish i s, .of_kept hframe.host hframe.cmdcnt _, hframe.ib⟩

/-! ## Bus errors (60_exceptions.md R366, R367) -/

/-- An access takes a bus error exactly where it has no location (20_memory.md R60 to R63). -/
theorem locate_eq_none_iff (addr : BitVec 12) (width : Nat) :
    locate addr width = none ↔ BusError addr.toNat width := by
  have hibuf : ibufBase = 0x400 := rfl
  have hobuf : obufBase = 0x800 := rfl
  unfold locate BusError
  dsimp only
  split_ifs with hreg hword hgap hibuf' hbyte hobuf' hbyte'
  all_goals simp only [false_iff, true_iff]
  all_goals omega

theorem State.dequeue_not_inReset (s : State) (rest : List HostEvent) (hreset : s.inReset = false) :
    ¬ (s.dequeue rest).inReset = true := ne_true_of_eq_false hreset

theorem HostDoes.write_of_not_busError {addr : BitVec 12} {width : Nat} (h : ¬ BusError addr.toNat width) (s : State)
    (v : Word) : HostDoes s (.write addr width v) fun t => t.reply = .written := by
  refine .of_hostEvent fun rest => ?_
  rw [← locate_eq_none_iff] at h
  rw [hostEvent]
  rcases hostWrite_cases addr width v (s.dequeue rest) with ⟨-, e⟩ | ⟨-, hn, -⟩ | ⟨l, -, -, ⟨-, -, e⟩ | ⟨-, e⟩⟩
  · exact e ▸ rfl
  · exact absurd hn h
  · exact e ▸ rfl
  · exact e ▸ rfl

section Access

variable {s : State} {addr : BitVec 12} {width : Nat} (hreset : s.inReset = false)
include hreset

theorem HostDoes.read_of_busError (h : BusError addr.toNat width) :
    HostDoes s (.read addr width) fun t => BlockKept s t ∧ ∃ junk, t.reply = .readError junk := by
  refine .of_hostEvent fun rest => ?_
  have hread : hostRead addr width (s.dequeue rest) = (s.dequeue rest).answerFree .readError := by
    rw [hostRead, if_neg (s.dequeue_not_inReset rest hreset), (locate_eq_none_iff addr width).2 h]
  rw [hostEvent, hread]
  exact ⟨.dequeue_answerFree .., _, rfl⟩

theorem HostDoes.write_of_busError (h : BusError addr.toNat width) (v : Word) :
    HostDoes s (.write addr width v) fun t => BlockKept s t ∧ t.reply = .writeError := by
  refine .of_hostEvent fun rest => ?_
  have hwrite : hostWrite addr width v (s.dequeue rest) = (s.dequeue rest).answer .writeError := by
    rw [hostWrite, if_neg (s.dequeue_not_inReset rest hreset), (locate_eq_none_iff addr width).2 h]
  rw [hostEvent, hwrite]
  exact ⟨.dequeue_answer .., rfl⟩

/-- A write while a command is in flight, to a location other than STATUS (60_exceptions.md R367). -/
theorem HostDoes.write_of_busy (hbusy : s.busy = true) {l : Loc} (hl : locate addr width = some l) (hne : l ≠ .status)
    (v : Word) :
    HostDoes s (.write addr width v) fun t => BlockKept { s with viol := true } t ∧ t.reply = .written := by
  refine .of_hostEvent fun rest => ?_
  have hwrite : hostWrite addr width v (s.dequeue rest) = (s.dequeue rest).setViol.answer .written := by
    have hviol : ((s.dequeue rest).busy && l != .status) = true := by
      rw [Bool.and_eq_true, bne_iff_ne]
      exact ⟨hbusy, hne⟩
    rw [hostWrite, if_neg (s.dequeue_not_inReset rest hreset), hl]
    exact congrArg (State.answer · .written) (if_pos hviol)
  rw [hostEvent, hwrite]
  exact ⟨.dequeue_answer s.setViol .., rfl⟩

end Access

theorem regLoc_ne_status {k : Nat} (hk : k ≠ 2) : regLoc k ≠ .status :=
  ite_ne nofun <| ite_ne nofun <| (if_neg hk).trans_ne <| ite_ne nofun <| ite_ne nofun <| ite_ne nofun <|
    ite_ne nofun <| ite_ne nofun <| ite_ne nofun <| ite_ne nofun nofun

/-- STATUS is at its one address (20_memory.md R60). -/
theorem addr_of_locate_status {addr : BitVec 12} {width : Nat} (h : locate addr width = some .status) :
    addr = 0x008 := by
  unfold locate at h
  dsimp only at h
  split_ifs at h with hreg hword hgap hibuf hbyte hobuf hbyte'
  · obtain ⟨-, haligned⟩ := hword
    have hk : addr.toNat / 4 = 2 := by_contra fun hk => regLoc_ne_status hk (Option.some.inj h)
    exact BitVec.eq_of_toNat_eq (show addr.toNat = 8 by omega)
  · exact absurd (Option.some.inj h) Loc.noConfusion
  · exact absurd (Option.some.inj h) Loc.noConfusion

/-- Settles O8: a write that has a location other than STATUS is a busy violation, one without is a bus error. -/
theorem busyWriteSetsViolation : Obligations.BusyWriteSetsViolation := by
  intro s addr width v hreset hbusy hne rest hinbox hturn
  cases hl : locate addr width with
  | none =>
    have herr := (locate_eq_none_iff addr width).1 hl
    obtain ⟨t, ht, hrest, hpost⟩ := HostDoes.write_of_busError hreset herr v rest hinbox hturn
    exact ⟨t, ht, hrest, fun hok => absurd herr hok, fun _ => hpost⟩
  | some l =>
    have hok : ¬ BusError addr.toNat width := fun h => by
      rw [(locate_eq_none_iff addr width).2 h] at hl
      cases hl
    have hstatus : l ≠ .status := fun h => hne (addr_of_locate_status (h ▸ hl))
    obtain ⟨t, ht, hrest, hpost⟩ := HostDoes.write_of_busy hreset hbusy hl hstatus v rest hinbox hturn
    exact ⟨t, ht, hrest, fun _ => hpost, fun h => absurd h hok⟩

theorem HostDoes.imp {s : State} {e : HostEvent} {post post' : State → Prop} (h : HostDoes s e post)
    (himp : ∀ t, post t → post' t) : HostDoes s e post' := fun rest hinbox hturn =>
  have ⟨t, ht, hrest, hpost⟩ := h rest hinbox hturn
  ⟨t, ht, hrest, himp t hpost⟩

/-- Settles O9: an access without a location takes a bus error, one with a location none. -/
theorem busErrorHasNoEffect : Obligations.BusErrorHasNoEffect := by
  refine fun s addr width hreset => ⟨fun h => ⟨.read_of_busError hreset h, fun v => .write_of_busError hreset h v⟩,
    fun h => ⟨?read, fun v => .write_of_not_busError h s v⟩⟩
  obtain ⟨l, hl⟩ := Option.ne_none_iff_exists'.1 (mt (locate_eq_none_iff addr width).1 h)
  have hanswered : ReadAnswered s addr.toNat width :=
    .of_locate hreset (l := l) (by rwa [BitVec.ofNat_toNat, BitVec.setWidth_eq])
  rw [ReadAnswered, BitVec.ofNat_toNat, BitVec.setWidth_eq] at hanswered
  exact hanswered.imp fun _ ht => ht.2

/-! ## Reset (70_reset_and_hazards.md R380, R381) -/

/-- Every collector is empty (R381). -/
def State.CollectorsEmpty (t : State) : Prop :=
  (∀ k : Fin 6, t.lich.slots[k].valid = false ∧ t.lich.slots[k].data = 0 ∧ t.lich.slots[k].metric = 0)
  ∧ t.lich.sid = 0 ∧ t.lich.sidValid = false ∧ t.pkt.active = false ∧ t.pkt.exp = 0 ∧ t.text.active = false
  ∧ t.text.cnt = 0 ∧ t.text.next = 0

theorem State.collectorsEmpty_of {t : State} {m n : Nat} (hlich : t.lich = LichCollector.empty)
    (hpkt : t.pkt = PacketReassembler.idle m) (htext : t.text = TextCollector.idle n) : t.CollectorsEmpty := by
  rw [State.CollectorsEmpty, hlich, hpkt, htext]
  refine ⟨fun k => ?_, rfl, rfl, rfl, rfl, rfl, rfl, rfl⟩
  rw [LichCollector.empty_slots_getElem]
  exact ⟨rfl, rfl, rfl⟩

/-- A release of a reset that is asserted is the reset event (R380). -/
theorem hostEvent_resetRelease {s : State} (h : s.inReset = true) : hostEvent .resetRelease s = s.afterReset := if_pos h

section InReset

variable {s : State} (hreset : s.inReset = true)
include hreset

theorem State.engineTurn_of_inReset : s.engineTurn = false := by
  rw [State.engineTurn, hreset, Bool.not_true, Bool.and_false, Bool.false_and]

theorem HostDoes.read_of_inReset (addr : BitVec 12) (width : Nat) :
    HostDoes s (.read addr width) fun t => BlockKept s t ∧ ∃ v, t.reply = .data v := by
  refine .of_hostEvent fun rest => ?_
  have hread : hostRead addr width (s.dequeue rest)
      = (s.dequeue rest).answerFree fun v => .data (junkOf width v) := if_pos hreset
  rw [hostEvent, hread]
  exact ⟨.dequeue_answerFree .., _, rfl⟩

theorem HostDoes.write_of_inReset (addr : BitVec 12) (width : Nat) (v : Word) :
    HostDoes s (.write addr width v) fun t => BlockKept s t ∧ t.reply = .written := by
  refine .of_hostEvent fun rest => ?_
  have hwrite : hostWrite addr width v (s.dequeue rest) = (s.dequeue rest).answer .written := if_pos hreset
  rw [hostEvent, hwrite]
  exact ⟨.dequeue_answer .., rfl⟩

end InReset

@[simp] theorem State.reset_statusWord : State.reset.statusWord = 0 := by decide

/-- Every register reads its reset value after the reset event (R380). -/
theorem State.afterReset_readLoc (s : State) (l : Loc) : s.afterReset.readLoc l = (match l with
    | .id => 0x4D313707
    | .ctrl => 0x00000006
    | .param => 0x00800310
    | .ibuf i => (s.afterReset.ib i).setWidth 32
    | .obuf i => (s.afterReset.ob i).setWidth 32
    | _ => 0) := by
  cases l with
  | arg n | res n => fin_cases n <;> rfl
  | lichStat => exact LichCollector.empty_stat
  | pktStat => exact PacketReassembler.idle_stat _
  | textStat => exact TextCollector.idle_stat _
  | status => exact State.reset_statusWord
  | _ => rfl

/-- Settles O14: the assertion only makes the block deaf, the release is the reset event. -/
theorem resetEventAndValues : Obligations.ResetEventAndValues := by
  refine ⟨⟨fun s => .of_hostEvent fun rest => ?assert, fun s hreset =>
    ⟨s.engineTurn_of_inReset hreset, .read_of_inReset hreset, .write_of_inReset hreset,
      .of_hostEvent fun rest => ?release⟩⟩, fun t ht => ?empty⟩
  case assert =>
    exact ⟨rfl, rfl, rfl, rfl, rfl, rfl, rfl, rfl, rfl, rfl, rfl, rfl, rfl, rfl, rfl, rfl, rfl⟩
  case release =>
    rw [hostEvent_resetRelease (s := s.dequeue rest) hreset]
    exact ⟨rfl, rfl, State.afterReset_readLoc _, rfl⟩
  case empty =>
    rcases ht with rfl | ⟨s, hreset, rfl⟩
    · exact State.collectorsEmpty_of rfl rfl rfl
    · rw [hostEvent_resetRelease hreset]
      exact State.collectorsEmpty_of rfl rfl rfl

/-- Settles O15: the memories are empty and every collector is in its reset state. -/
theorem invariantAtReset : Obligations.InvariantAtReset where
  mem_wf := Memory.wf_nil
  mem_inside _ hc := absurd hc List.not_mem_nil
  lich := LichCollector.empty_ok
  pkt := PacketReassembler.idle_ok 0
  text := TextCollector.idle_ok 0
  in_flight hb := absurd hb Bool.false_ne_true

end Sys2Proof.Machine
end

section
/-! # Which errors the pseudocode of a command raises, and when (60_exceptions.md R351, R352, R355; O18, O20)

Every `raise` of every command is either its first act, or one of those the table of R355 lists; said once of the runs,
both the list of errors of a command and the frame of an unlisted error follow. -/

namespace Sys2Proof.Machine

/-- The pseudocode of `i`, started in `s`, has ended as R351, R352 and R355 allow: an error is one listed for the
command, and where R355 does not list it, nothing was written before it. -/
def RaisesAsListed (i : Instr) (s : State) (r : Run) : Prop :=
  ∀ e, r.error = some e →
    (i.wellFormed = true → raises e i = true) ∧ (writesBeforeRaise i e = false → r = s.raise e)

namespace RaisesAsListed

variable {i : Instr} {s u : State}

theorem ok : RaisesAsListed i s u.ok := nofun

/-- An error that is raised before anything is written. -/
theorem first {e : Err} (h : raises e i = true) : RaisesAsListed i s (s.raise e) := by
  rintro _ ⟨⟩
  exact ⟨fun _ => h, fun _ => rfl⟩

/-- Errors of the table of R355. -/
theorem raiseIf {x : Option Err} (h : ∀ e, x = some e → raises e i = true ∧ writesBeforeRaise i e = true) :
    RaisesAsListed i s (u.raiseIf x) := by
  intro e he
  obtain ⟨hraises, hwrites⟩ := h e he
  exact ⟨fun _ => hraises, fun hn => absurd (hn.symm.trans hwrites) Bool.false_ne_true⟩

theorem late {e : Err} (h : raises e i = true) (hw : writesBeforeRaise i e = true) :
    RaisesAsListed i s (u.raise e) :=
  raiseIf (x := some e) fun _ he => Option.some.inj he ▸ ⟨h, hw⟩

theorem branch {c : Prop} [Decidable c] {r q : Run} (hr : RaisesAsListed i s r) (hq : RaisesAsListed i s q) :
    RaisesAsListed i s (if c then r else q) := by
  split
  · exact hr
  · exact hq

/-- A well-formed command passes the check of SCHED (30_encoding.md R98). -/
theorem withSched {sched : BitVec 4} {r : Run} (hi : i.wellFormed = schedOk sched) (hr : RaisesAsListed i s r) :
    RaisesAsListed i s (withSched sched s r) := by
  unfold Machine.withSched
  split
  · exact hr
  · rename_i hsched
    rintro _ ⟨⟩
    exact ⟨fun hwf => absurd (hi.symm.trans hwf) hsched, fun _ => rfl⟩

end RaisesAsListed

/-! ## The errors of the shared operations -/

/-- The errors of `lsf_check` (47_lsf_meta.md R251). -/
theorem lsfCheck_error {s : State} {L : Bytes} {e : Err} (h : s.lsfCheck L = some e) :
    e = .crcMismatch ∨ ∃ v, e = .unsupportedVersion v := by
  unfold State.lsfCheck State.versionCheck at h
  split_ifs at h
  · exact .inl (Option.some.inj h).symm
  · exact .inr ⟨_, (Option.some.inj h).symm⟩

theorem ipCheck_error {s : State} {F L : Bytes} {e : Err} (h : s.ipCheck F L = some e) :
    e = .crcMismatch ∨ ∃ v, e = .unsupportedVersion v := by
  unfold State.ipCheck at h
  split_ifs at h
  · exact .inl (Option.some.inj h).symm
  · exact lsfCheck_error h

theorem rejectedError_error {a : LichAction} {e : Err} (h : rejectedError a = some e) :
    e = .reassembly .dupMismatch := by
  unfold rejectedError at h
  split_ifs at h
  exact (Option.some.inj h).symm

theorem b40Encode_error {P : Params} {t : Bytes} {e : Err} (h : b40Encode P t = .error e) :
    e = .invalidInput .invalidChar := by
  by_cases hall : t = broadcastText
  · subst hall
    cases h
  · by_cases hhash : t.head? = some 0x23
    · obtain ⟨rest, rfl⟩ := List.head?_eq_some_iff.1 hhash
      rw [b40Encode_hash] at h
      split_ifs at h
      exact (Except.error.inj h).symm
    · rw [b40Encode_plain P hall hhash] at h
      split_ifs at h
      exact (Except.error.inj h).symm

theorem b40Text_error {P : Params} {n : Nat} {e : Err} (h : b40Text P n = .error e) :
    e = .invalidInput .reservedRange := by
  unfold b40Text at h
  split_ifs at h
  exact (Except.error.inj h).symm

theorem TextCollector.settle_ne_error (c : TextCollector) (a : TextAction) (e : Err) : (c.settle a).2 ≠ .error e := by
  rcases c.settle_cases a with ⟨-, h⟩ | ⟨-, h⟩
  · exact h ▸ nofun
  · exact h ▸ nofun

/-- The errors of `text_accept` (47_lsf_meta.md R258). -/
theorem textAccept_error {P : Params} {c : TextCollector} {B : Bytes} {e : Err} (h : (textAccept P c B).2 = .error e) :
    e = .reassembly .badCount ∨ e = .reassembly .outOfOrder := by
  rcases textAccept_cases P c B with ⟨-, e⟩ | ⟨-, ⟨-, e⟩ | ⟨-, -, e⟩ | ⟨-, -, -, e⟩ | ⟨-, -, -, e⟩⟩ <;> rw [e] at h
  · exact .inl (Except.error.inj h).symm
  · cases h
  · exact absurd h (TextCollector.settle_ne_error _ _ _)
  · exact absurd h (TextCollector.settle_ne_error _ _ _)
  · exact .inr (Except.error.inj h).symm

/-- The errors of `pkt_accept` (48_stream_packet_ip.md R291). -/
theorem packetAccept_error {p : PacketReassembler} {B : Bytes} {e : Err} (h : (packetAccept p B).2 = .error e) :
    raises e .pktAccept = true ∧ writesBeforeRaise .pktAccept e = true := by
  unfold packetAccept at h
  split_ifs at h
  · rcases acceptLastChunk_cases p B (chunkCounter B).toNat with ⟨-, e⟩ | ⟨-, -, -, e⟩ | ⟨-, -, -, -, e⟩ |
      ⟨-, -, -, -, e⟩ <;>
      rw [e] at h <;> cases h <;> exact ⟨rfl, rfl⟩
  · rcases acceptMiddleChunk_cases p B (chunkCounter B).toNat with ⟨-, -, -, e⟩ | ⟨-, -, -, e⟩ | ⟨-, -, e⟩ |
      ⟨-, -, -, e⟩ | ⟨-, -, -, e⟩ | ⟨-, -, -, e⟩ <;>
      rw [e] at h <;> cases h <;> exact ⟨rfl, rfl⟩

namespace RaisesAsListed

variable {s u : State}

/-- The commands that end with the check of an LSF, of which R355 lists each (47_lsf_meta.md R251). -/
theorem checksLsf {i : Instr} (hi : i ∈ ([.lsfParse, .lichAssemble, .ipParse, .lsfRx] : List Instr)) {x : Option Err}
    (hx : ∀ e, x = some e → e = .crcMismatch ∨ ∃ v, e = .unsupportedVersion v) : RaisesAsListed i s (u.raiseIf x) := by
  refine raiseIf fun e he => ?_
  simp only [List.mem_cons, List.not_mem_nil, or_false] at hi
  obtain rfl | ⟨v, rfl⟩ := hx e he
  · rcases hi with rfl | rfl | rfl | rfl <;> exact ⟨rfl, rfl⟩
  · rcases hi with rfl | rfl | rfl | rfl <;> exact ⟨rfl, rfl⟩

theorem b40DecodeCommon {i : Instr} (hi : raises (.invalidInput .reservedRange) i = true) (n : Nat) :
    RaisesAsListed i s (b40DecodeCommon hw n s) := by
  unfold Machine.b40DecodeCommon
  cases ht : b40Text hw n with
  | error e => exact first (b40Text_error ht ▸ hi)
  | ok r => exact ok

theorem b40Enc (len : BitVec 16) : RaisesAsListed (.b40Enc len) s (b40EncRun hw len s) := by
  refine branch (first rfl) ?_
  cases ht : b40Encode hw (s.ibytes 0 len.toNat) with
  | error e => exact first (b40Encode_error ht ▸ rfl)
  | ok r => exact ok

theorem golayDec : RaisesAsListed .golayDec s (golayDecRun hw s) := by
  refine branch (first rfl) ?_
  cases golayHard hw (s.argField 0 24) with
  | some r => exact ok
  | none => exact first rfl

theorem crc16Chk (len : BitVec 16) : RaisesAsListed (.crc16Chk len) s (crc16ChkRun len s) := by
  refine branch (first rfl) (raiseIf fun e he => ?_)
  split_ifs at he
  cases he
  exact ⟨rfl, rfl⟩

theorem textAccept : RaisesAsListed .textAccept s (textAcceptRun hw s) := by
  have herror := fun e => textAccept_error (P := hw) (c := s.text) (B := s.ibytes 0 14) (e := e)
  unfold textAcceptRun
  generalize Machine.textAccept hw s.text (s.ibytes 0 14) = r at herror
  obtain ⟨c, e | a⟩ := r
  · rcases herror e rfl with rfl | rfl <;> exact late rfl rfl
  · exact ok

theorem pktAccept : RaisesAsListed .pktAccept s (pktAcceptRun s) := by
  have herror := fun e => packetAccept_error (p := s.pkt) (B := s.ibytes 0 26) (e := e)
  unfold pktAcceptRun
  generalize packetAccept s.pkt (s.ibytes 0 26) = r at herror
  obtain ⟨p, e | a⟩ := r
  · exact late (herror e rfl).1 (herror e rfl).2
  · exact ok

theorem rejected {i : Instr} (hi : i = .lichAccept ∨ i = .lichRx) (a : LichAction) :
    RaisesAsListed i s (u.raiseIf (rejectedError a)) := by
  refine raiseIf fun e he => ?_
  rw [rejectedError_error he]
  rcases hi with rfl | rfl <;> exact ⟨rfl, rfl⟩

end RaisesAsListed

/-! ## Every command -/

/-- Every command raises as R351, R352 and R355 list. -/
theorem commandRun_raisesAsListed (i : Instr) (s : State) : RaisesAsListed i s (commandRun i s) := by
  cases i with
  | crc16Chk len => exact .crc16Chk len
  | b40Enc len => exact .b40Enc len
  | b40Dec => exact .branch (.first rfl) (.b40DecodeCommon rfl _)
  | b40Decb => exact .b40DecodeCommon rfl _
  | golayDec => exact .golayDec
  | convEnc len sched | punct len sched | viterbi len sched => exact .withSched rfl (.branch (.first rfl) .ok)
  | intlv len soft | rand len soft => exact .branch (.first rfl) (.branch .ok .ok)
  | lsfParse | lsfRx => exact .checksLsf (by decide) fun _ => lsfCheck_error
  | ipParse => exact .branch (.first rfl) (.checksLsf (by decide) fun _ => ipCheck_error)
  | lichAssemble => exact .branch (.late rfl rfl) (.checksLsf (by decide) fun _ => lsfCheck_error)
  | metaPosPack => exact .branch .ok (.first rfl)
  | textAccept => exact .textAccept
  | pktAccept => exact .pktAccept
  | lichAccept => exact .branch (.first rfl) (.rejected (.inl rfl) _)
  | lichRx => exact .branch (.first rfl) (.rejected (.inr rfl) _)
  | pktFlush => exact .branch (.late rfl rfl) .ok
  | strRx => exact .branch (.first rfl) (.branch .ok .ok)
  | prbsGen len | pktBuild len | pktChunk len | bertTx | bertRx =>
    exact .branch (.first rfl) (.branch (.first rfl) .ok)
  | crc16 len | typeBv2 | typePv2 | typeBv3 | typePv3 | typeDet | golayEnc | berCnt len | aesivCtr | textPack len
  | lichChunk | lichReset | ipBuild => exact .branch (.first rfl) .ok
  | nop | clear | golaySdec | lichEnc | lichSdec | lsfBuild | metaPosUnpack | metaEcsPack | metaEcsUnpack | textReset
  | pktReset | lsfTx | strTx | pktTx | pktRx => exact .ok

/-- Settles O18: an error that R355 does not list is the first act of the pseudocode. -/
theorem errorsLeaveOutputsUnchanged : Obligations.ErrorsLeaveOutputsUnchanged := by
  intro i s t e ht herror hlist
  rw [exec_eq_next_iff] at ht
  subst ht
  obtain ⟨-, hrun⟩ := commandRun_raisesAsListed i s e herror
  exact .of_run (exec_eq_finish i s) (hrun hlist)

/-- Settles O20: the errors of each command, and the two tables of numbers. -/
theorem onlyListedErrors : Obligations.OnlyListedErrors := by
  refine ⟨fun i s t e hwf ht herror => ?listed, fun s hs => ?none, fun s e hs => ?numbers⟩
  case listed =>
    rw [exec_eq_next_iff] at ht
    subst ht
    exact (commandRun_raisesAsListed i s e herror).1 hwf
  case none =>
    rw [State.errField, State.subField, hs]
    exact ⟨rfl, rfl⟩
  case numbers =>
    rw [State.errField, State.subField, hs]
    cases e with
    | invalidInput f => cases f <;> decide
    | reassembly f => cases f <;> decide
    | unsupportedVersion v => cases v <;> decide
    | illegalCommand f => cases f <;> decide
    | crcMismatch | badMagic | decodeFailure => decide

end Sys2Proof.Machine
end

section
/-! # What a run writes (00_scope.md R11, 10_state.md R22, R33)

The frame of a run is read off its text: each operation on the state keeps the frame, an OBUF write if it lies inside
OB[0..n), a result register if it is listed. Then bytes that a host copies from OBUF to IBUF. -/

namespace Sys2Proof.Machine

/-- Between the states s and u the result registers listed, OB[0..n) and collectors have been written, nothing else; the
list is that of the run, last write first. -/
structure WritesOnly (w : List (Fin 8)) (n : Nat) (s u : State) : Prop where
  host : HostSideKept s u
  cmdcnt : u.cmdcnt = s.cmdcnt
  res : ResKept s u w
  bytes : BytesKept s u n

namespace WritesOnly

variable {w : List (Fin 8)} {n : Nat} {s u : State}

theorem start : WritesOnly [] n s s := ⟨HostSideKept.refl s, rfl, fun _ _ => rfl, fun _ _ => rfl⟩

variable (h : WritesOnly w n s u)
include h

theorem setRes {m : Fin 8} {v : Word} : WritesOnly (m :: w) n s (u.setRes m v) := by
  refine ⟨h.host, h.cmdcnt, fun k hk => ?_, h.bytes⟩
  rw [State.setRes_resReg, if_neg (List.ne_of_not_mem_cons hk)]
  exact h.res k (List.not_mem_of_not_mem_cons hk)

theorem setResNat {m : Fin 8} {v : Nat} : WritesOnly (m :: w) n s (u.setResNat m v) := h.setRes

theorem setResBitmap {m : Fin 8} : WritesOnly (m :: w) n s (u.setResBitmap m) := h.setRes

theorem setResAddr {lo hi : Fin 8} {v : Nat} : WritesOnly (hi :: lo :: w) n s (u.setResAddr lo hi v) :=
  h.setResNat.setResNat

theorem obWrite {i : Nat} {B : Bytes} (hB : i + B.length ≤ n) : WritesOnly w n s (u.obWrite i B) := by
  refine ⟨h.host, h.cmdcnt, h.res, fun a ha => ?_⟩
  rw [State.obWrite_byteAt_of_not _ _ _ _ (by omega)]
  exact h.bytes a ha

theorem setLich {l : LichCollector} : WritesOnly w n s (u.setLich l) := ⟨h.host, h.cmdcnt, h.res, h.bytes⟩

theorem setPkt {p : PacketReassembler} : WritesOnly w n s (u.setPkt p) := ⟨h.host, h.cmdcnt, h.res, h.bytes⟩

theorem setText {c : TextCollector} : WritesOnly w n s (u.setText c) := ⟨h.host, h.cmdcnt, h.res, h.bytes⟩

end WritesOnly

/-- The command has no collector of its own (10_state.md R34 to R36). -/
abbrev NoCollector (i : Instr) : Prop := i ∉ lichCommands ∧ i ∉ pktCommands ∧ i ∉ textCommands

theorem NoCollector.kept {i : Instr} (h : NoCollector i) (s : State) : CollectorsKept s (commandRun i s).state :=
  have ⟨hlich, hpkt, htext⟩ := h
  have hframe := commandRun_framed i s
  ⟨hframe.lich hlich, hframe.pkt hpkt, hframe.text htext⟩

section Run

variable {i : Instr} {s : State} {e : Option Err} {v w : List (Fin 8)} {n : Nat} {post : State → Prop} {r : Run}
  (hrun : commandRun i s = r) (he : r.error = e) (hv : WritesOnly v n s r.state) (hsub : v ⊆ w)
include hrun he hv hsub

theorem Gives.of_writes (hp : post (r.state.complete e)) : Gives i s e w n post :=
  Gives.of_run r (hrun ▸ exec_eq_finish i s) he hv.host hv.cmdcnt (fun k hk => hv.res k (mt (@hsub k) hk)) hv.bytes hp

theorem Yields.of_writes (hi : NoCollector i) (hp : post (r.state.complete e)) : Yields i s e w n post :=
  Gives.of_writes hrun he hv hsub ⟨hrun ▸ hi.kept s, hp⟩

end Run

theorem Gives.imp {i : Instr} {s : State} {e : Option Err} {w : List (Fin 8)} {n : Nat} {post post' : State → Prop}
    (h : Gives i s e w n post) (himp : ∀ t, post t → post' t) : Gives i s e w n post' := by
  obtain ⟨t, ht, hdone, hres, hbytes, hpost⟩ := h
  exact ⟨t, ht, hdone, hres, hbytes, himp t hpost⟩

/-- The state a command answers is the one its `Gives` speaks of. -/
theorem Gives.of_next {i : Instr} {s t : State} {e : Option Err} {w : List (Fin 8)} {n : Nat} {post : State → Prop}
    (h : Gives i s e w n post) (ht : exec i s = .next t) : t.error = e ∧ post t := by
  obtain ⟨t', ht', ⟨-, -, herror, -⟩, -, -, hpost⟩ := h
  cases ht.symm.trans ht'
  exact ⟨herror, hpost⟩

/-- A command whose error is its first act, and the check that raises it. -/
theorem OnlyRaises.of_commandRun {i : Instr} {s : State} {e : Err} (h : commandRun i s = s.raise e) :
    OnlyRaises i s e := .of_run (exec_eq_finish i s) h

/-! ## Bytes -/

theorem State.slice_ibytes_zero (s : State) {n a b : Nat} (h : b ≤ n) : slice (s.ibytes 0 n) a b = s.ibytes a b := by
  rw [State.slice_ibytes s 0 n a b (by omega), Nat.zero_add, Nat.zero_add]

theorem State.ibytes_succ (s : State) (i : Nat) : s.ibytes i (i + 1) = [s.ib i] := by
  simp [State.ibytes]

@[simp] theorem beNat_singleton (b : Byte) : beNat [b] = b.toNat := by
  rw [beNat_cons, beNat_nil, List.length_nil]
  omega

/-- A byte sequence copied from OBUF to IBUF. -/
theorem State.ibytes_of_copy {t s' : State} {B : Bytes} {n : Nat} (hob : ObHolds t 0 B) (hn : B.length = n)
    (hcopy : ∀ k < n, s'.ib k = t.ob k) : s'.ibytes 0 n = B := by
  subst hn
  refine List.ext_getElem (by simp) fun k hk hk' => ?_
  rw [State.ibytes_getElem, Nat.zero_add, hcopy k hk', ← hob k hk', Nat.zero_add]

/-- A number in as many bytes as hold it. -/
theorem beNat_beBytes_of_lt {n v : Nat} (h : v < 256 ^ n) : beNat (beBytes n v) = v := by
  rw [beNat_beBytes, Nat.mod_eq_of_lt h]

/-- The bytes of a range of IBUF as a number: `n` bytes are less than `256 ^ n`. -/
theorem State.beNat_ibytes_lt (s : State) {i j n : Nat} (h : j - i ≤ n) : beNat (s.ibytes i j) < 256 ^ n :=
  (beNat_lt _).trans_le (Nat.pow_le_pow_right (by decide) (by rwa [State.ibytes_length]))

theorem ObHolds.singleton {t : State} {i : Nat} {b : Byte} (h : ObHolds t i [b]) : t.ob i = b :=
  h 0 Nat.zero_lt_one

theorem slice_self (B : Bytes) : slice B 0 B.length = B := by
  rw [slice, List.drop_zero, Nat.sub_zero, List.take_length]

/-- The CRC behind the bytes it covers. -/
theorem slice_own_crc (B : Bytes) :
    slice (B ++ beBytes 2 (crc16 B).toNat) B.length (B.length + 2) = beBytes 2 (crc16 B).toNat := by
  have h := slice_append_right B (beBytes 2 (crc16 B).toNat)
  rwa [beBytes_length] at h

theorem crc16_toNat_lt (B : Bytes) : (crc16 B).toNat < 256 ^ 2 := (crc16 B).isLt

end Sys2Proof.Machine
end

section
/-! # LSF_BUILD and LSF_PARSE (47_lsf_meta.md R250, R251, R259, R260; O41) -/

namespace Sys2Proof.Machine

theorem lsfBuild_yields (s : State) :
    Yields .lsfBuild s none [0] 30 fun t =>
      ObHolds t 0 (s.ibytes 0 28) ∧ ObHolds t 28 (beBytes 2 (crc16 (s.ibytes 0 28)).toNat)
      ∧ ResIs t 0 (crc16 (s.ibytes 0 28)).toNat := by
  refine Yields.of_writes (r := lsfBuildRun s) rfl rfl ((WritesOnly.start.obWrite (by simp)).obWrite (by simp)).setRes
    (by decide) (by decide) ⟨?lsf, ?crc, ?res⟩
  case lsf =>
    simp only [lsfBuildRun, State.ok_state, obHolds_complete, obHolds_setRes]
    exact (ObHolds.write s 0 _).keep (.inl (by simp))
  case crc => simp [lsfBuildRun]
  case res => exact .of_setWidth (by decide) (by simp [lsfBuildRun])

/-- The fields of an LSF as LSF_PARSE writes them, of any 30 bytes. -/
theorem lsfParse_yields (s : State) :
    Yields .lsfParse s (lsfVerdict s.v2En s.v3En (s.ibytes 0 30)) [0, 1, 2, 3, 4, 5, 6, 7] 0 fun t =>
      ResIs t 0 (beNat (s.ibytes 12 14)) ∧ ResIs t 1 (versionCode (beNat (s.ibytes 12 14)))
      ∧ ResIs t 2 (metaCode (beNat (s.ibytes 12 14))) ∧ ResIs t 3 (crc16 (s.ibytes 0 28)).toNat
      ∧ ResAddr t 4 5 (beNat (s.ibytes 0 6)) ∧ ResAddr t 6 7 (beNat (s.ibytes 6 12)) := by
  have htype : (lsfType (s.ibytes 0 30)).toNat = beNat (s.ibytes 12 14) := by
    rw [lsfType_toNat, s.slice_ibytes_zero (by decide)]
  have hdstLt : beNat (s.ibytes 0 6) < 2 ^ 64 := (s.beNat_ibytes_lt (n := 6) (by decide)).trans (by decide)
  have hsrcLt : beNat (s.ibytes 6 12) < 2 ^ 64 := (s.beNat_ibytes_lt (n := 6) (by decide)).trans (by decide)
  have hcovered := s.slice_ibytes_zero (n := 30) (a := 0) (b := 28) (by decide)
  have hdst := s.slice_ibytes_zero (n := 30) (a := 0) (b := 6) (by decide)
  have hsrc := s.slice_ibytes_zero (n := 30) (a := 6) (b := 12) (by decide)
  rw [← htype, ← detect_code, ← metatag_code]
  refine Yields.of_writes (r := lsfParseRun s) rfl (s.lsfCheck_eq _)
    WritesOnly.start.setRes.setResNat.setResNat.setRes.setResAddr.setResAddr (by decide) (by decide)
    ⟨.of_setWidth (by decide) ?_, .of_ofNat (detect_code _ ▸ versionCode_lt _) ?_, .of_ofNat (metatag_code_lt _) ?_,
      .of_setWidth (by decide) ?_, .of_ofNat hdstLt ?_ ?_, .of_ofNat hsrcLt ?_ ?_⟩
  all_goals simp [lsfParseRun, hcovered, hdst, hsrc]

/-- LSF_BUILD leaves the LSF with its CRC in OBUF. -/
theorem lsfBuild_obHolds {s t : State} (ht : exec .lsfBuild s = .next t) : ObHolds t 0 s.lsfWithCrc := by
  obtain ⟨-, hlsf, hcrc, -⟩ := (lsfBuild_yields s).of_next ht
  exact hlsf.append (by simpa using hcrc)

theorem State.slice_lsfWithCrc (s : State) {a b : Nat} (h : b ≤ 28) : slice s.lsfWithCrc a b = s.ibytes a b := by
  rw [State.lsfWithCrc, slice_append_left _ _ (by simpa using h), s.slice_ibytes_zero h]

/-- Settles O41: the two runs, and what LSF_BUILD wrote read as LSF_PARSE reads it. -/
theorem lsfBuildAndParse : Obligations.LsfBuildAndParse := by
  refine ⟨fun s => ⟨lsfBuild_yields s, lsfParse_yields s⟩, fun s t s' ht hcopy => ?roundTrip⟩
  have hwhole : s'.ibytes 0 30 = s.lsfWithCrc := State.ibytes_of_copy (lsfBuild_obHolds ht) (by simp) hcopy
  have hpart : ∀ a, ∀ b ≤ 28, s'.ibytes a b = s.ibytes a b := fun a b hb => by
    rw [← s'.slice_ibytes_zero (n := 30) (by omega), hwhole, s.slice_lsfWithCrc hb]
  have hparse := lsfParse_yields s'
  rw [hwhole, lsfVerdict_lsfWithCrc, hpart 12 14 (by decide), hpart 0 28 (by decide), hpart 0 6 (by decide),
    hpart 6 12 (by decide)] at hparse
  obtain ⟨-, -, -, hcrc⟩ := (lsfBuild_yields s).of_next ht
  refine hparse.imp ?_
  rintro t' ⟨htype, -, -, hcrc', hdst, hsrc⟩
  exact ⟨htype, BitVec.eq_of_toNat_eq (hcrc'.trans hcrc.symm), hdst, hsrc⟩

end Sys2Proof.Machine
end

section
/-! # The META commands but for text (47_lsf_meta.md R252 to R255, R261 to R265; O42, O43) -/

namespace Sys2Proof.Machine

/-! ## Signed fields (R252, R261, R262) -/

/-- A 24-bit field in two's complement. -/
theorem signed24_toInt {v : Nat} (h : v < 16777216) :
    (signed24 v).toInt = if v < 8388608 then (v : Int) else (v : Int) - 16777216 := by
  rw [signed24, BitVec.toInt_signExtend_of_le (by decide), BitVec.toInt_eq_toNat_cond, BitVec.toNat_ofNat,
    Nat.mod_eq_of_lt h]
  split <;> split <;> omega

/-- A signed field modulo 2^24, read back. -/
theorem signed_of_mod {x : Int} (hlo : -8388608 ≤ x) (hhi : x ≤ 8388607) :
    (if (x % 16777216).toNat < 8388608 then ((x % 16777216).toNat : Int)
      else ((x % 16777216).toNat : Int) - 16777216) = x := by
  split <;> omega

theorem toInt_ofInt_of_bounds {x : Int} (hlo : -2147483648 ≤ x) (hhi : x < 2147483648) :
    (BitVec.ofInt 32 x).toInt = x := by
  rw [BitVec.toInt_ofInt, Int.bmod_eq_of_le (by omega) (by omega)]

/-! ## META_POS_PACK (R261) -/

theorem State.positionOk_iff (s : State) :
    s.positionOk = true ↔
      (s.argReg 0).toNat ≤ 255 ∧ (s.argReg 1).toNat ≤ 255 ∧ -8388608 ≤ (s.argReg 2).toInt
      ∧ (s.argReg 2).toInt ≤ 8388607 ∧ -8388608 ≤ (s.argReg 3).toInt ∧ (s.argReg 3).toInt ≤ 8388607
      ∧ -1500 ≤ (s.argReg 4).toInt ∧ (s.argReg 4).toInt ≤ 64035 ∧ (s.argReg 5).toNat ≤ 359 := by
  have halt : s.altitudeRaw = (s.argReg 4).toInt + 1500 := rfl
  simp only [State.positionOk, Bool.and_eq_true, decide_eq_true_eq]
  omega

theorem metaPosPack_fieldRange {s : State} (h : ¬ s.positionOk = true) :
    OnlyRaises .metaPosPack s (.invalidInput .fieldRange) := .of_commandRun (if_neg h)

@[simp] theorem State.positionMeta_length (s : State) : s.positionMeta.length = 14 := by simp [State.positionMeta]

theorem metaPosPack_yields {s : State} (h : s.positionOk = true) :
    Yields .metaPosPack s none [] 14 fun t => ObHolds t 0 s.positionMeta :=
  .of_obWrite (if_pos h) s.positionMeta_length

/-- A one-byte field of OBUF. -/
theorem ObHolds.byte_toNat {t : State} {i v : Nat} (h : ObHolds t i (beBytes 1 v)) (hv : v ≤ 255) :
    (t.ob i).toNat = v := by
  rw [show t.ob i = BitVec.ofNat 8 (v / 256 ^ 0) from h 0 Nat.zero_lt_one, pow_zero, Nat.div_one, BitVec.toNat_ofNat]
  omega

/-- The fields of the position one after the other (R252). -/
theorem State.positionMeta_fields {s t : State} (h : ObHolds t 0 s.positionMeta) :
    ObHolds t 0 (beBytes 1 (s.argReg 0).toNat) ∧ ObHolds t 1 (beBytes 1 (s.argReg 1).toNat)
    ∧ ObHolds t 2 (beBytes 3 ((s.argReg 2).toInt % 16777216).toNat)
    ∧ ObHolds t 5 (beBytes 3 ((s.argReg 3).toInt % 16777216).toNat)
    ∧ ObHolds t 8 (beBytes 2 ((s.argReg 4).toInt + 1500).toNat) ∧ ObHolds t 10 (beBytes 2 (s.argReg 5).toNat)
    ∧ ObHolds t 12 (beBytes 1 (min (s.argReg 6).toNat 255)) ∧ ObHolds t 13 [0] := by
  rw [State.positionMeta, show (2 : Int) ^ 24 = 16777216 by norm_num] at h
  obtain ⟨h, hreserved⟩ := h.of_append
  obtain ⟨h, hspeed⟩ := h.of_append
  obtain ⟨h, hbearing⟩ := h.of_append
  obtain ⟨h, halt⟩ := h.of_append
  obtain ⟨h, hlon⟩ := h.of_append
  obtain ⟨h, hlat⟩ := h.of_append
  obtain ⟨hsource, hstation⟩ := h.of_append
  simp only [List.length_append, beBytes_length] at hreserved hspeed hbearing halt hlon hlat hstation
  exact ⟨hsource, hstation, hlat, hlon, halt, hbearing, hspeed, hreserved⟩

/-! ## META_POS_UNPACK (R262) -/

theorem metaPosUnpack_yields (s : State) :
    Yields .metaPosUnpack s none [0, 1, 2, 3, 4, 5, 6, 7] 0 fun t =>
      ResIs t 0 (s.ib 0).toNat ∧ ResIs t 1 (s.ib 1).toNat
      ∧ t.resReg 2 = signed24 (beNat (s.ibytes 2 5)) ∧ t.resReg 3 = signed24 (beNat (s.ibytes 5 8))
      ∧ t.resReg 4 = BitVec.ofInt 32 ((beNat (s.ibytes 8 10) : Int) - 1500)
      ∧ ResIs t 5 (beNat (s.ibytes 10 12)) ∧ ResIs t 6 (s.ib 12).toNat ∧ ResIs t 7 (s.ib 13).toNat := by
  have part : ∀ a, ∀ b ≤ 14, slice (s.ibytes 0 14) a b = s.ibytes a b := fun a b hb => s.slice_ibytes_zero hb
  have byte : ∀ i < 14, beNat (slice (s.ibytes 0 14) i (i + 1)) = (s.ib i).toNat := fun i hi => by
    rw [part i (i + 1) hi, s.ibytes_succ, beNat_singleton]
  have small : ∀ i, (s.ib i).toNat < 2 ^ 32 := fun i => (s.ib i).isLt.trans (by decide)
  have hbearing : beNat (s.ibytes 10 12) < 2 ^ 32 := (s.beNat_ibytes_lt (n := 2) (by decide)).trans (by decide)
  -- the signed values stay variables: the kernel would compute them where it compares the states of the run
  obtain ⟨lat, hlat⟩ : ∃ v, v = signed24 (beNat (s.ibytes 2 5)) := ⟨_, rfl⟩
  obtain ⟨lon, hlon⟩ : ∃ v, v = signed24 (beNat (s.ibytes 5 8)) := ⟨_, rfl⟩
  obtain ⟨alt, halt⟩ : ∃ v, v = BitVec.ofInt 32 ((beNat (s.ibytes 8 10) : Int) - 1500) := ⟨_, rfl⟩
  have hrun : commandRun .metaPosUnpack s
      = ((((((((s.setResNat 0 (s.ib 0).toNat).setResNat 1 (s.ib 1).toNat).setRes 2 lat).setRes 3 lon).setRes 4
          alt).setResNat 5 (beNat (s.ibytes 10 12))).setResNat 6 (s.ib 12).toNat).setResNat 7 (s.ib 13).toNat).ok := by
    show metaPosUnpackRun s = _
    simp only [metaPosUnpackRun, hlat, hlon, halt, byte 0 (by decide), byte 1 (by decide), part 2 5 (by decide),
      part 5 8 (by decide), part 8 10 (by decide), part 10 12 (by decide), byte 12 (by decide), byte 13 (by decide)]
  rw [← hlat, ← hlon, ← halt]
  refine Yields.of_writes hrun rfl
    WritesOnly.start.setResNat.setResNat.setRes.setRes.setRes.setResNat.setResNat.setResNat (by decide) (by decide)
    ⟨.of_ofNat (small 0) ?_, .of_ofNat (small 1) ?_, ?_, ?_, ?_, .of_ofNat hbearing ?_, .of_ofNat (small 12) ?_,
      .of_ofNat (small 13) ?_⟩
  all_goals simp

/-- A range of IBUF that copies a number from OBUF. -/
theorem State.beNat_of_copy {t s' : State} {i n v : Nat} (h : ObHolds t i (beBytes n v)) (hv : v < 256 ^ n)
    (hcopy : ∀ k < n, s'.ib (i + k) = t.ob (i + k)) : beNat (s'.ibytes i (i + n)) = v := by
  have hbytes : s'.ibytes i (i + n) = beBytes n v := by
    refine List.ext_getElem (by simp) fun k hk hk' => ?_
    rw [State.ibytes_getElem, hcopy k (by simpa using hk'), h k hk']
  rw [hbytes, beNat_beBytes_of_lt hv]

/-- A position packed and unpacked (R252). -/
theorem metaPos_roundTrip {s t s' : State} (ht : exec .metaPosPack s = .next t) (herror : t.error = none)
    (hcopy : ∀ k < 14, s'.ib k = t.ob k) :
    Yields .metaPosUnpack s' none [0, 1, 2, 3, 4, 5, 6, 7] 0 fun t' =>
      (∀ n : Fin 8, n < 6 → t'.resReg n = s.argReg n) ∧ ResIs t' 6 (min (s.argReg 6).toNat 255) ∧ ResIs t' 7 0 := by
  have hok : s.positionOk = true := by
    by_contra hn
    obtain ⟨hraised, -⟩ := (metaPosPack_fieldRange hn).of_next ht
    cases herror.symm.trans hraised
  obtain ⟨-, hob⟩ := (metaPosPack_yields hok).of_next ht
  obtain ⟨hsource, hstation, hlat, hlon, halt, hbearing, hspeed, hreserved⟩ := State.positionMeta_fields hob
  obtain ⟨hsource', hstation', hlatLo, hlatHi, hlonLo, hlonHi, haltLo, haltHi, hbearing'⟩ := s.positionOk_iff.1 hok
  have lat : beNat (s'.ibytes 2 5) = ((s.argReg 2).toInt % 16777216).toNat :=
    State.beNat_of_copy hlat (by omega) fun k hk => hcopy _ (by omega)
  have lon : beNat (s'.ibytes 5 8) = ((s.argReg 3).toInt % 16777216).toNat :=
    State.beNat_of_copy hlon (by omega) fun k hk => hcopy _ (by omega)
  have alt : beNat (s'.ibytes 8 10) = ((s.argReg 4).toInt + 1500).toNat :=
    State.beNat_of_copy halt (by omega) fun k hk => hcopy _ (by omega)
  have bearing : beNat (s'.ibytes 10 12) = (s.argReg 5).toNat :=
    State.beNat_of_copy hbearing (by omega) fun k hk => hcopy _ (by omega)
  refine (metaPosUnpack_yields s').imp ?_
  rintro t' ⟨h0, h1, h2, h3, h4, h5, h6, h7⟩
  rw [hcopy 0 (by decide), hsource.byte_toNat hsource'] at h0
  rw [hcopy 1 (by decide), hstation.byte_toNat hstation'] at h1
  rw [bearing] at h5
  rw [hcopy 12 (by decide), hspeed.byte_toNat (min_le_right _ _)] at h6
  rw [hcopy 13 (by decide), hreserved.singleton] at h7
  have r2 : t'.resReg 2 = s.argReg 2 := BitVec.eq_of_toInt_eq (by
    rw [h2, lat, signed24_toInt (by omega), signed_of_mod hlatLo hlatHi])
  have r3 : t'.resReg 3 = s.argReg 3 := BitVec.eq_of_toInt_eq (by
    rw [h3, lon, signed24_toInt (by omega), signed_of_mod hlonLo hlonHi])
  have r4 : t'.resReg 4 = s.argReg 4 := BitVec.eq_of_toInt_eq (by
    rw [h4, alt, toInt_ofInt_of_bounds (by omega) (by omega)]
    omega)
  refine ⟨fun n hn => ?_, h6, h7⟩
  match n, hn with
  | 0, _ => exact BitVec.eq_of_toNat_eq h0
  | 1, _ => exact BitVec.eq_of_toNat_eq h1
  | 2, _ => exact r2
  | 3, _ => exact r3
  | 4, _ => exact r4
  | 5, _ => exact BitVec.eq_of_toNat_eq h5

/-- Settles O42: the fields that META_POS_PACK writes and META_POS_UNPACK reads, and the one after the other. -/
theorem metaPositionPackAndUnpack : Obligations.MetaPositionPackAndUnpack := by
  refine ⟨fun s => ⟨fun hok => ?pack, fun hok => metaPosPack_fieldRange (mt s.positionOk_iff.1 hok), ?unpack⟩,
    fun s t s' ht herror hcopy => metaPos_roundTrip ht herror hcopy⟩
  case pack =>
    refine (metaPosPack_yields (s.positionOk_iff.2 hok)).imp fun t hob => ?_
    obtain ⟨hsource, hstation, hlat, hlon, halt, hbearing, hspeed, hreserved⟩ := State.positionMeta_fields hob
    obtain ⟨hsource', hstation', -⟩ := hok
    exact ⟨hsource.byte_toNat hsource', hstation.byte_toNat hstation', hlat, hlon, halt, hbearing,
      hspeed.byte_toNat (min_le_right _ _), hreserved.singleton⟩
  case unpack =>
    have hlat := s.beNat_ibytes_lt (i := 2) (j := 5) (n := 3) (by decide)
    have hlon := s.beNat_ibytes_lt (i := 5) (j := 8) (n := 3) (by decide)
    have halt := s.beNat_ibytes_lt (i := 8) (j := 10) (n := 2) (by decide)
    refine (metaPosUnpack_yields s).imp ?_
    rintro t ⟨h0, h1, h2, h3, h4, h5, h6, h7⟩
    refine ⟨h0, h1, ?_, ?_, ?_, h5, h6, h7⟩
    · rw [h2, signed24_toInt hlat]
    · rw [h3, signed24_toInt hlon]
    · rw [h4, toInt_ofInt_of_bounds (by omega) (by omega)]

/-! ## META_ECS_PACK, META_ECS_UNPACK, AESIV_CTR (R263, R264, R265) -/

theorem metaEcsPack_yields (s : State) :
    Yields .metaEcsPack s none [] 14 fun t => ObHolds t 0 (s.ibytes 0 12) ∧ ObHolds t 12 [0, 0] := by
  refine Yields.of_writes (r := metaEcsPackRun s) rfl rfl ((WritesOnly.start.obWrite (by simp)).obWrite (by simp))
    (by decide) (by decide) ⟨?addresses, ?zeros⟩
  case addresses =>
    simp only [metaEcsPackRun, State.ok_state, obHolds_complete]
    exact (ObHolds.write s 0 _).keep (.inl (by simp))
  case zeros => simp [metaEcsPackRun]

theorem metaEcsUnpack_yields (s : State) :
    Yields .metaEcsUnpack s none [0, 1, 2, 3, 4] 12 fun t =>
      ObHolds t 0 (s.ibytes 0 12) ∧ ResIs t 0 (beNat (s.ibytes 12 14)) ∧ ResAddr t 1 2 (beNat (s.ibytes 0 6))
      ∧ ResAddr t 3 4 (beNat (s.ibytes 6 12)) := by
  have hreserved : beNat (s.ibytes 12 14) < 2 ^ 32 := (s.beNat_ibytes_lt (n := 2) (by decide)).trans (by decide)
  have hfirst : beNat (s.ibytes 0 6) < 2 ^ 64 := (s.beNat_ibytes_lt (n := 6) (by decide)).trans (by decide)
  have hsecond : beNat (s.ibytes 6 12) < 2 ^ 64 := (s.beNat_ibytes_lt (n := 6) (by decide)).trans (by decide)
  refine Yields.of_writes (r := metaEcsUnpackRun s) rfl rfl
    (WritesOnly.start.obWrite (by simp)).setResNat.setResAddr.setResAddr (by decide) (by decide)
    ⟨?_, .of_ofNat hreserved ?_, .of_ofNat hfirst ?_ ?_, .of_ofNat hsecond ?_ ?_⟩
  all_goals simp [metaEcsUnpackRun]

theorem aesivCtr_yields {s : State} (h : (s.argReg 0).toNat < 2 ^ 16) :
    Yields .aesivCtr s none [] 16 fun t =>
      ObHolds t 0 (s.ibytes 0 14) ∧ ObHolds t 14 (beBytes 2 (s.argReg 0).toNat) := by
  have hrun : commandRun .aesivCtr s
      = ((s.obWrite 0 (s.ibytes 0 14)).obWrite 14 (beBytes 2 (s.argReg 0).toNat)).ok := by
    rw [← State.argField_toNat h]
    exact if_neg (State.not_argHigh_of_lt h)
  refine Yields.of_writes hrun rfl ((WritesOnly.start.obWrite (by simp)).obWrite (by simp)) (by decide) (by decide)
    ⟨?iv, ?frame⟩
  case iv =>
    simp only [State.ok_state, obHolds_complete]
    exact (ObHolds.write s 0 _).keep (.inl (by simp))
  case frame => simp

theorem aesivCtr_fieldRange {s : State} (h : 2 ^ 16 ≤ (s.argReg 0).toNat) :
    OnlyRaises .aesivCtr s (.invalidInput .fieldRange) :=
  .of_commandRun (if_pos ((s.argHigh_ne_zero_iff 0 16).2 h))

/-- Settles O43: the run of each command. -/
theorem metaCallsignAndIvCommands : Obligations.MetaCallsignAndIvCommands := fun s =>
  ⟨metaEcsPack_yields s, metaEcsUnpack_yields s, aesivCtr_yields, aesivCtr_fieldRange⟩

end Sys2Proof.Machine
end

section
/-! # Text blocks (47_lsf_meta.md R256, R257, R266; O44)

Block p of a text holds the bytes 13p to 13p + 12 of the text, which is 0 past its end. -/

namespace Sys2Proof.Machine

theorem slice_getD (B : Bytes) {i j k : Nat} (h : k < j - i) : (slice B i j).getD k 0 = B.getD (i + k) 0 := by
  rw [List.getD_eq_getElem?_getD, slice_getElem?, if_pos h, ← List.getD_eq_getElem?_getD]

/-- A sequence with zeros after it has the same bytes, 0 past its end. -/
theorem getD_append_zeros (B : Bytes) (m k : Nat) : (B ++ List.replicate m 0).getD k 0 = B.getD k 0 := by
  by_cases h : k < B.length
  · rw [List.getD_append _ _ _ _ h]
  · rw [List.getD_append_right _ _ _ _ (not_lt.1 h), List.getD_eq_default _ _ (not_lt.1 h)]
    simp [List.getD_eq_getElem?_getD, List.getElem?_replicate]
    split <;> rfl

/-- A byte range of IBUF, 0 past its end. -/
theorem State.ibytes_getD_zero (s : State) (n k : Nat) :
    (s.ibytes 0 n).getD k 0 = if k < n then s.ib k else 0 := by
  split
  · rw [State.ibytes_getD _ _ _ _ (by omega), Nat.zero_add]
  · rw [List.getD_eq_default _ _ (by rw [State.ibytes_length]; omega)]

/-! ## The blocks (R256, R257) -/

@[simp] theorem textBlock_control (T : Bytes) (n p : Nat) :
    (textBlock hw T n p).getD 0 0 = BitVec.ofNat 8 (16 * n + p) := rfl

theorem textBlock_text (T : Bytes) (n p : Nat) {k : Nat} (h : k < 13) :
    (textBlock hw T n p).getD (1 + k) 0 = T.getD (13 * p + k) 0 := by
  rw [textBlock, Nat.add_comm 1 k, List.getD_cons_succ, getD_append_zeros, slice_getD _ (by omega)]

/-- Byte k of block p, where the blocks stand one after the other. -/
theorem textFrag_flatten_getD (T : Bytes) {p k : Nat} (hp : p < textBlockCount T.length) (hk : k < 14) :
    (textFrag hw T).flatten.getD (14 * p + k) 0 = (textBlock hw T (textBlockCount T.length) p).getD k 0 := by
  rw [textFrag, ← List.flatMap_def]
  exact flatMap_range_getD _ (textBlock_length hw T _) 0 hp hk

theorem textFrag_flatten_length (T : Bytes) :
    (textFrag hw T).flatten.length = 14 * textBlockCount T.length := by
  simp [textFrag, List.length_flatten, Function.comp_def, textBlock_length, Nat.mul_comm]

@[simp] theorem textFrag_length (T : Bytes) : (textFrag hw T).length = textBlockCount T.length := by
  simp [textFrag]

/-! ## TEXT_PACK (R266) -/

theorem textPack_badLength (s : State) {len : BitVec 16} (h : 195 < len.toNat) :
    OnlyRaises (.textPack len) s (.invalidInput .badLength) := .of_commandRun (if_pos h)

theorem textPack_yields (s : State) {len : BitVec 16} (h : len.toNat ≤ 195) :
    Yields (.textPack len) s none [0, 1] (14 * textBlockCount len.toNat) fun t =>
      ObHolds t 0 (textFrag hw (s.ibytes 0 len.toNat)).flatten ∧ ResIs t 0 (textBlockCount len.toNat)
      ∧ ResIs t 1 len.toNat := by
  have hcount : textBlockCount len.toNat < 2 ^ 32 := by
    rw [textBlockCount]
    omega
  have hlen : (s.ibytes 0 len.toNat).length = len.toNat := s.ibytes_length 0 len.toNat
  have hrun : commandRun (.textPack len) s = (((s.obWrite 0 (textFrag hw (s.ibytes 0 len.toNat)).flatten).setResNat 0
      (textBlockCount len.toNat)).setResNat 1 len.toNat).ok := by
    show textPackRun hw len s = _
    rw [textPackRun, if_neg (not_lt.2 h)]
    simp only [textFrag_length, hlen]
  have hwrites := WritesOnly.start.obWrite (s := s) (n := 14 * textBlockCount len.toNat) (i := 0)
    (B := (textFrag hw (s.ibytes 0 len.toNat)).flatten) (by rw [Nat.zero_add, textFrag_flatten_length, hlen])
  exact .of_writes hrun rfl hwrites.setResNat.setResNat (by decide)
    (by simp [NoCollector, lichCommands, pktCommands, textCommands])
    ⟨by simp, .of_ofNat hcount (by simp), .of_ofNat (by omega) (by simp)⟩

/-- A byte of a block in OBUF. -/
theorem ob_of_textFrag {t : State} {T : Bytes} (hob : ObHolds t 0 (textFrag hw T).flatten) {p k : Nat}
    (hp : p < textBlockCount T.length) (hk : k < 14) :
    t.ob (14 * p + k) = (textBlock hw T (textBlockCount T.length) p).getD k 0 := by
  rw [hob.ob_getD (by rw [textFrag_flatten_length]; omega), textFrag_flatten_getD T hp hk]

/-- The control byte of a text of at most 15 blocks. -/
theorem textControl_toNat {n p : Nat} (hn : n ≤ 15) (hp : p < n) :
    (BitVec.ofNat 8 (16 * n + p)).toNat = 16 * n + p := by
  rw [BitVec.toNat_ofNat]
  omega

/-- Settles O44: the control byte and the text bytes of each block. -/
theorem textPackCommand : Obligations.TextPackCommand := by
  intro s len L n
  have hn : textBlockCount (s.ibytes 0 L).length = n := by rw [State.ibytes_length]; rfl
  refine ⟨fun h => (textPack_yields s h).imp ?blocks, textPack_badLength s⟩
  rintro t ⟨hob, hcount, hlen⟩
  refine ⟨hcount, hlen, fun p hp => ⟨?control, fun k hk => ?text⟩⟩
  case control =>
    have hcontrol := ob_of_textFrag hob (hn ▸ hp) (k := 0) (by decide)
    rw [hn, Nat.add_zero, textBlock_control] at hcontrol
    rw [hcontrol, textControl_toNat (by omega) hp]
  case text =>
    rw [Nat.add_assoc, ob_of_textFrag hob (hn ▸ hp) (by omega), textBlock_text _ _ _ hk, State.ibytes_getD_zero]

end Sys2Proof.Machine
end

section
/-! # The text collector (47_lsf_meta.md R258, R267, R268; O45) -/

namespace Sys2Proof.Machine

/-! ## TBUF -/

@[simp] theorem TextCollector.bytes_length (c : TextCollector) (i j : Nat) : (c.bytes i j).length = j - i := by
  simp [TextCollector.bytes]

theorem TextCollector.bytes_getElem? (c : TextCollector) (i j k : Nat) :
    (c.bytes i j)[k]? = if k < j - i then some (c.byte (i + k)) else none := by
  simp only [TextCollector.bytes, List.getElem?_map]
  split
  · rw [List.getElem?_range ‹_›]
    rfl
  · rw [List.getElem?_eq_none (by rw [List.length_range]; omega)]
    rfl

/-- TBUF after a block was stored. -/
theorem TextCollector.store_byte (c : TextCollector) {B : Bytes} (hB : B.length = 14) (p k : Nat) :
    (c.store B p).byte k = if 13 * p ≤ k ∧ k < 13 * p + 13 then B.getD (1 + (k - 13 * p)) 0 else c.byte k := by
  have hlen : (slice B 1 14).length = 13 := by rw [slice_length]; omega
  rw [TextCollector.byte, TextCollector.store_tbuf, TextCollector.store_epoch, Memory.find_writeBytes, hlen]
  split
  next h =>
    rw [slice_getElem?, if_pos (by omega), List.getElem?_eq_getElem (by omega), List.getD_eq_getElem _ _ (by omega)]
    rfl
  next => rfl

/-- The text up to the end of a stored block. -/
theorem TextCollector.store_bytes (c : TextCollector) {B : Bytes} (hB : B.length = 14) (p : Nat) :
    (c.store B p).bytes 0 (13 * (p + 1)) = c.bytes 0 (13 * p) ++ slice B 1 14 := by
  refine List.ext_getElem? fun k => ?_
  rw [List.getElem?_append, TextCollector.bytes_length, TextCollector.bytes_getElem?, TextCollector.bytes_getElem?,
    slice_getElem?, Nat.zero_add, c.store_byte hB]
  by_cases h : k < 13 * p
  · rw [if_pos (by omega), if_neg (by omega), if_pos (by omega), if_pos (by omega)]
  · by_cases h' : k < 13 * p + 13
    · rw [if_pos (by omega), if_pos (by omega), if_neg (by omega), if_pos (by omega), Nat.sub_zero,
        List.getElem?_eq_getElem (by omega), List.getD_eq_getElem _ _ (by omega)]
    · rw [if_neg (by omega), if_neg (by omega), if_neg (by omega)]

/-! ## `text_accept` (R258) -/

/-- The number of blocks that a control byte announces. -/
def blockCount (B : Bytes) : Nat := (B.getD 0 0).toNat / 16

/-- The position that a control byte gives its block. -/
def blockPos (B : Bytes) : Nat := (B.getD 0 0).toNat % 16

theorem blockCount_lt (B : Bytes) : blockCount B < 16 := by
  have := (B.getD 0 0).isLt
  rw [blockCount]
  omega

/-- `text_accept` by the numbers in the control byte. -/
theorem textAccept_hw (c : TextCollector) (B : Bytes) :
    textAccept hw c B =
      if blockCount B ≤ blockPos B then (c.cleared, .error (.reassembly .badCount))
      else if (c.active = true ∧ c.cnt.toNat = blockCount B) ∧ c.next.toNat = blockPos B + 1
          ∧ slice B 1 14 = c.bytes (13 * blockPos B) (13 * blockPos B + 13) then (c, .ok .duplicate)
      else if (c.active = true ∧ c.cnt.toNat = blockCount B) ∧ c.next.toNat = blockPos B then
        (c.store B (blockPos B)).settle .stored
      else if blockPos B = 0 then
        ((c.begin (BitVec.ofNat 4 (blockCount B))).store B 0).settle (if c.active then .restarted else .stored)
      else (c.cleared, .error (.reassembly .outOfOrder)) := by
  have hcontrol := (B.getD 0 0).isLt
  have hcount : ((B.getD 0 0).extractLsb' 4 4).toNat = blockCount B := by
    rw [BitVec.extractLsb'_toNat, Nat.shiftRight_eq_div_pow, blockCount]
    omega
  have hpos : (((B.getD 0 0).extractLsb' 0 4).toNat : Int) - (hw.textIndexBase : Nat) = blockPos B := by
    rw [BitVec.extractLsb'_toNat, Nat.shiftRight_zero, show hw.textIndexBase = 0 from rfl, Int.natCast_zero, sub_zero]
    rfl
  have hcc : (B.getD 0 0).extractLsb' 4 4 = BitVec.ofNat 4 (blockCount B) :=
    BitVec.eq_of_toNat_eq (by rw [hcount, BitVec.toNat_ofNat, Nat.mod_eq_of_lt (blockCount_lt B)])
  have hmalformed : ((B.getD 0 0).extractLsb' 4 4 = 0 ∨ (blockPos B : Int) < 0
      ∨ (blockPos B : Int) ≥ ((B.getD 0 0).extractLsb' 4 4).toNat) ↔ blockCount B ≤ blockPos B := by
    rw [← BitVec.toNat_inj, hcount, show (0 : BitVec 4).toNat = 0 from rfl]
    omega
  have hsame : (B.getD 0 0).extractLsb' 4 4 = c.cnt ↔ c.cnt.toNat = blockCount B := by
    rw [← BitVec.toNat_inj, hcount, eq_comm]
  have hnext : ∀ x y : Nat, x = y ↔ y = x := fun _ _ => eq_comm
  simp only [textAccept, hpos, hmalformed, hsame, Int.toNat_natCast, and_assoc, hnext (blockPos B + 1),
    hnext (blockPos B) c.next.toNat]
  rw [hcc]

section Stored

variable {c : TextCollector} {B : Bytes} {p : Nat} (hB : B.length = 14)

/-- A block before the last is stored, and the collector waits for the next. -/
theorem TextCollector.settle_of_lt (h : p + 1 < c.cnt.toNat) (a : TextAction) :
    (c.store B p).settle a = (c.store B p, .ok a) ∧ (c.store B p).next.toNat = p + 1 := by
  have hcnt := c.cnt.isLt
  have hnext : (c.store B p).next.toNat = p + 1 := by
    rw [TextCollector.store_next, BitVec.toNat_ofNat]
    omega
  refine ⟨if_neg fun heq => ?_, hnext⟩
  have := congrArg BitVec.toNat heq
  rw [hnext, TextCollector.store_cnt] at this
  omega

include hB in
/-- The last block completes the text. -/
theorem TextCollector.settle_of_eq (h : p + 1 = c.cnt.toNat) (a : TextAction) :
    (c.store B p).settle a
      = ((c.store B p).cleared, .ok (.complete (trimEnd 0 (c.bytes 0 (13 * p) ++ slice B 1 14)))) := by
  have hlast : (c.store B p).next = (c.store B p).cnt := by
    rw [TextCollector.store_next, TextCollector.store_cnt, h, BitVec.ofNat_toNat, BitVec.setWidth_eq]
  rw [TextCollector.settle, if_pos hlast, TextCollector.store_cnt, ← h, c.store_bytes hB]

end Stored

/-! ## The commands (R267, R268) -/

theorem textReset_gives (s : State) :
    Gives .textReset s none [] 0 fun t =>
      t.lich = s.lich ∧ t.pkt = s.pkt ∧ t.text = TextCollector.idle (s.text.epoch + 1) :=
  .of_writes (r := textResetRun s) rfl rfl WritesOnly.start.setText (by decide) ⟨rfl, rfl, rfl⟩

section Accept

variable {s : State} {c : TextCollector}

theorem textAccept_gives_error {e : Err} (h : textAccept hw s.text (s.ibytes 0 14) = (c, .error e)) :
    Gives .textAccept s (some e) [] 0 fun t => (t.lich = s.lich ∧ t.pkt = s.pkt) ∧ t.text = c := by
  have hrun : commandRun .textAccept s = (s.setText c).raise e := by
    show textAcceptRun hw s = _
    simp only [textAcceptRun, h]
  exact .of_writes hrun rfl WritesOnly.start.setText (by decide) ⟨⟨rfl, rfl⟩, rfl⟩

/-- An action other than completion is reported in RES0, the collector's CNT and NEXT in RES2 and RES3. -/
theorem textAccept_gives {a : TextAction} {action : Nat}
    (h : textAccept hw s.text (s.ibytes 0 14) = (c, .ok a))
    (ha : ∀ u : State, u.writeTextAction a = u.setResNat 0 action) (hcode : action < 2 ^ 32) :
    Gives .textAccept s none [0, 2, 3] 0 fun t =>
      (t.lich = s.lich ∧ t.pkt = s.pkt) ∧ ResIs t 0 action ∧ ResIs t 2 c.cnt.toNat ∧ ResIs t 3 c.next.toNat
      ∧ t.text = c := by
  have hrun : commandRun .textAccept s
      = ((((s.setText c).setResNat 0 action).setRes 2 (c.cnt.setWidth 32)).setRes 3 (c.next.setWidth 32)).ok := by
    show textAcceptRun hw s = _
    simp only [textAcceptRun, h, ha]
  exact .of_writes hrun rfl WritesOnly.start.setText.setResNat.setRes.setRes (by decide)
    ⟨⟨rfl, rfl⟩, .of_ofNat hcode (by simp), .of_setWidth (by decide) (by simp), .of_setWidth (by decide) (by simp), rfl⟩

/-- A completed text goes to OBUF, with its length in RES1. -/
theorem textAccept_gives_complete {T : Bytes}
    (h : textAccept hw s.text (s.ibytes 0 14) = (c, .ok (.complete T))) :
    Gives .textAccept s none [0, 1, 2, 3] T.length fun t =>
      (t.lich = s.lich ∧ t.pkt = s.pkt) ∧ ResIs t 0 2 ∧ ResIs t 1 T.length ∧ ResIs t 2 c.cnt.toNat
      ∧ ResIs t 3 c.next.toNat ∧ ObHolds t 0 T ∧ t.text = c := by
  have hlen : T.length < 2 ^ 32 := (textAccept_complete_length (congrArg Prod.snd h)).trans_lt (by decide)
  have hrun : commandRun .textAccept s
      = ((((((s.setText c).obWrite 0 T).setResNat 0 2).setResNat 1 T.length).setRes 2 (c.cnt.setWidth 32)).setRes 3
          (c.next.setWidth 32)).ok := by
    show textAcceptRun hw s = _
    simp only [textAcceptRun, h, State.writeTextAction]
  have hframe := commandRun_framed .textAccept s
  rw [hrun] at hframe
  exact .of_writes hrun rfl (WritesOnly.start.setText.obWrite (by simp)).setResNat.setResNat.setRes.setRes
    (by decide)
    ⟨⟨hframe.lich (by decide), hframe.pkt (by decide)⟩, .of_ofNat (by decide) (by simp), .of_ofNat hlen (by simp),
      .of_setWidth (by decide) (by simp), .of_setWidth (by decide) (by simp), by simp, by simp⟩

end Accept

/-- What TEXT_ACCEPT does where `text_accept` stores the block in the collector `d`, which is the collector before it,
or the one that begins a message. -/
theorem textAccept_stores {s : State} {d : TextCollector} {p cc action : Nat} {a : TextAction}
    (h : textAccept hw s.text (s.ibytes 0 14) = (d.store (s.ibytes 0 14) p).settle a)
    (ha : ∀ u : State, u.writeTextAction a = u.setResNat 0 action) (hcode : action < 2 ^ 32)
    (hactive : d.active = true) (hcnt : d.cnt.toNat = cc) (hbyte : ∀ k, d.byte k = s.text.byte k) :
    (p + 1 < cc → Gives .textAccept s none [0, 2, 3] 0 fun t =>
      (t.lich = s.lich ∧ t.pkt = s.pkt) ∧ ResIs t 0 action ∧ ResIs t 2 cc ∧ ResIs t 3 (p + 1) ∧ t.text.active = true
      ∧ t.text.cnt.toNat = cc ∧ t.text.next.toNat = p + 1
      ∧ ∀ k, t.text.byte k = if 13 * p ≤ k ∧ k < 13 * p + 13 then s.ib (1 + (k - 13 * p)) else s.text.byte k)
    ∧ (p + 1 = cc →
      let text := trimEnd 0 (s.text.bytes 0 (13 * p) ++ s.ibytes 1 14)
      Gives .textAccept s none [0, 1, 2, 3] text.length fun t =>
        (t.lich = s.lich ∧ t.pkt = s.pkt) ∧ ResIs t 0 2 ∧ ResIs t 1 text.length ∧ ResIs t 2 0 ∧ ResIs t 3 0
        ∧ ObHolds t 0 text ∧ t.text.active = false ∧ t.text.cnt = 0 ∧ t.text.next = 0) := by
  have hB : (s.ibytes 0 14).length = 14 := s.ibytes_length 0 14
  subst hcnt
  refine ⟨fun hlt => ?middle, fun heq => ?last⟩
  case middle =>
    obtain ⟨hsettle, hnext⟩ := TextCollector.settle_of_lt (B := s.ibytes 0 14) hlt a
    refine (textAccept_gives (h.trans hsettle) ha hcode).imp ?_
    rintro t ⟨hothers, h0, h2, h3, htext⟩
    rw [hnext] at h3
    rw [htext]
    refine ⟨hothers, h0, h2, h3, hactive, rfl, hnext, fun k => ?_⟩
    rw [d.store_byte hB, hbyte]
    refine ite_congr rfl (fun hk => ?_) fun _ => rfl
    rw [State.ibytes_getD _ _ _ _ (by omega), Nat.zero_add]
  case last =>
    have hsettle := TextCollector.settle_of_eq hB heq a
    have hbytes : d.bytes 0 (13 * p) = s.text.bytes 0 (13 * p) := List.map_congr_left fun k _ => hbyte _
    rw [hbytes, s.slice_ibytes_zero (by decide)] at hsettle
    refine (textAccept_gives_complete (h.trans hsettle)).imp ?_
    rintro t ⟨hothers, h0, h1, h2, h3, hob, htext⟩
    rw [htext]
    exact ⟨hothers, h0, h1, h2, h3, hob, rfl, rfl, rfl⟩

/-- A message begins: RES0 tells whether it abandoned another. -/
theorem writeTextAction_start (u : State) (active : Bool) :
    u.writeTextAction (if active then .restarted else .stored) = u.setResNat 0 (if active then 3 else 0) := by
  cases active <;> rfl

/-- Settles O45: each branch of `text_accept`, completed. -/
theorem textCollectorCommands : Obligations.TextCollectorCommands := by
  refine ⟨fun s => (textReset_gives s).imp ?reset, fun s => ?accept⟩
  case reset =>
    rintro t ⟨hlich, hpkt, htext⟩
    rw [htext]
    exact ⟨hlich, hpkt, rfl, rfl, rfl, TextCollector.idle_stat _⟩
  case accept =>
    intro c cc p others fails stores continues repeats
    have hcontrol : (s.ibytes 0 14).getD 0 0 = s.ib 0 := s.ibytes_getD 0 14 0 (by decide)
    have hcc : blockCount (s.ibytes 0 14) = cc := by rw [blockCount, hcontrol]
    have hp : blockPos (s.ibytes 0 14) = p := by rw [blockPos, hcontrol]
    have haccept := textAccept_hw c (s.ibytes 0 14)
    rw [hcc, hp, s.slice_ibytes_zero (by decide)] at haccept
    have hcc16 : cc < 16 := hcc ▸ blockCount_lt _
    by_cases hbad : cc ≤ p
    · rw [if_pos hbad] at haccept ⊢
      exact textAccept_gives_error haccept
    rw [if_neg hbad] at haccept ⊢
    by_cases hrepeat : repeats
    · rw [if_pos hrepeat] at haccept ⊢
      refine (textAccept_gives haccept (fun _ => rfl) (by decide)).imp ?_
      rintro t ⟨⟨hlich, hpkt⟩, h0, h2, h3, htext⟩
      exact ⟨⟨hlich, hpkt, htext⟩, h0, h2, h3⟩
    rw [if_neg hrepeat] at haccept ⊢
    by_cases hnext : continues ∧ c.next.toNat = p
    · rw [if_pos hnext] at haccept ⊢
      exact textAccept_stores haccept (fun _ => rfl) (by decide) hnext.1.1 hnext.1.2 fun _ => rfl
    rw [if_neg hnext] at haccept ⊢
    by_cases hfirst : p = 0
    · rw [if_pos hfirst] at haccept ⊢
      have hstart : textAccept hw c (s.ibytes 0 14) = ((c.begin (BitVec.ofNat 4 cc)).store (s.ibytes 0 14) p).settle
          (if c.active then .restarted else .stored) := by rw [haccept, hfirst]
      exact textAccept_stores hstart (fun _ => writeTextAction_start _ _) (by cases c.active <;> decide) rfl
        ((BitVec.toNat_ofNat ..).trans (Nat.mod_eq_of_lt hcc16)) fun _ => rfl
    · rw [if_neg hfirst] at haccept ⊢
      exact textAccept_gives_error haccept

end Sys2Proof.Machine
end

section
/-! # A text cut into blocks and collected again (47_lsf_meta.md R257, R258; O46)

Before block p the collector holds the first 13p bytes of the text, which is 0 past its end. -/

namespace Sys2Proof.Machine

/-! ## Trailing zeros -/

theorem trimEnd_append_replicate (b : Byte) (T : Bytes) (m : Nat) :
    trimEnd b (T ++ List.replicate m b) = trimEnd b T := by
  rw [trimEnd, trimEnd, List.reverse_append, List.reverse_replicate, List.dropWhile_append_of_pos]
  intro x hx
  rw [List.eq_of_mem_replicate hx, beq_self_eq_true]

/-- Bytes that agree with a text, which is 0 past its end, are the text without its trailing zeros. -/
theorem trimEnd_of_getD {T B : Bytes} (hlen : T.length ≤ B.length) (h : ∀ k < B.length, B.getD k 0 = T.getD k 0) :
    trimEnd 0 B = trimEnd 0 T := by
  have hB : B = T ++ List.replicate (B.length - T.length) 0 := by
    refine List.ext_getElem (by simp [hlen]) fun k hk hk' => ?_
    rw [← List.getD_eq_getElem B 0 hk, ← List.getD_eq_getElem _ 0 hk', h k hk, getD_append_zeros]
  rw [hB, trimEnd_append_replicate]

/-! ## The collector between two blocks -/

/-- The text collector before block p of the n blocks of the text T. -/
structure Holds (c : TextCollector) (T : Bytes) (n p : Nat) : Prop where
  idle : p = 0 → c.active = false
  collecting : 0 < p → c.active = true ∧ c.cnt.toNat = n ∧ c.next.toNat = p
  bytes : ∀ k < 13 * p, c.byte k = T.getD k 0

section Block

variable {T B : Bytes} {n p : Nat} (hn : n ≤ 15) (hp : p < n)

include hn hp in
/-- A block that starts with the control byte of block p of n is stored, by the collector itself or by the one that
begins the message. -/
theorem Holds.textAccept {c : TextCollector} (h : Holds c T n p) (hB : B.getD 0 0 = BitVec.ofNat 8 (16 * n + p)) :
    ∃ d : TextCollector, textAccept hw c B = (d.store B p).settle .stored ∧ d.active = true ∧ d.cnt.toNat = n
      ∧ ∀ k, d.byte k = c.byte k := by
  have hcount : blockCount B = n := by rw [blockCount, hB, textControl_toNat hn hp]; omega
  have hpos : blockPos B = p := by rw [blockPos, hB, textControl_toNat hn hp]; omega
  have haccept := textAccept_hw c B
  rw [hcount, hpos, if_neg (not_le.2 hp)] at haccept
  rcases Nat.eq_zero_or_pos p with hzero | hpos
  · have hinactive : ¬ (c.active = true ∧ c.cnt.toNat = n) := by simp [h.idle hzero]
    rw [if_neg (mt And.left hinactive), if_neg (mt And.left hinactive), if_pos hzero, h.idle hzero, ← hzero] at haccept
    refine ⟨c.begin (BitVec.ofNat 4 n), ?_, rfl, ?_, fun _ => rfl⟩
    · subst hzero
      exact haccept
    · exact (BitVec.toNat_ofNat ..).trans (Nat.mod_eq_of_lt (by omega))
  · obtain ⟨hactive, hcnt, hnext⟩ := h.collecting hpos
    rw [if_neg (by omega), if_pos ⟨⟨hactive, hcnt⟩, hnext⟩] at haccept
    exact ⟨c, haccept, hactive, hcnt, fun _ => rfl⟩

/-- IBUF holds block p of the n blocks of the text T. -/
def BlockInIbuf (s : State) (T : Bytes) (n p : Nat) : Prop := ∀ k < 14, s.ib k = (textBlock hw T n p).getD k 0

theorem BlockInIbuf.text {s : State} (h : BlockInIbuf s T n p) {k : Nat} (hk : k < 13) :
    s.ib (1 + k) = T.getD (13 * p + k) 0 := by
  rw [h _ (by omega), textBlock_text _ _ _ hk]

variable {s t : State} (hs : Holds s.text T n p) (hB : BlockInIbuf s T n p) (ht : exec .textAccept s = .next t)
include hn hp hs hB ht

/-- TEXT_ACCEPT of block p stores it, or completes the text with it. -/
theorem textAccept_block :
    (p + 1 < n → t.error = none ∧ ResIs t 0 0 ∧ Holds t.text T n (p + 1))
    ∧ (p + 1 = n → T.length ≤ 13 * n → t.error = none ∧ ResIs t 0 2 ∧ ResIs t 1 (trimEnd 0 T).length
      ∧ ObHolds t 0 (trimEnd 0 T) ∧ t.text.active = false) := by
  have hcontrol : (s.ibytes 0 14).getD 0 0 = BitVec.ofNat 8 (16 * n + p) := by
    rw [s.ibytes_getD 0 14 0 (by decide), hB 0 (by decide), textBlock_control]
  obtain ⟨d, haccept, hactive, hcnt, hbyte⟩ := hs.textAccept hn hp hcontrol
  obtain ⟨hmiddle, hlast⟩ := textAccept_stores haccept (fun _ => rfl) (by decide) hactive hcnt hbyte
  refine ⟨fun h => ?middle, fun h hlen => ?last⟩
  case middle =>
    obtain ⟨herror, -, h0, -, -, hactive, hcnt, hnext, hstored⟩ := (hmiddle h).of_next ht
    refine ⟨herror, h0, nofun, fun _ => ⟨hactive, hcnt, hnext⟩, fun k hk => ?_⟩
    rw [hstored]
    split
    next hk' => rw [hB.text (by omega)]; congr 1; omega
    next => exact hs.bytes k (by omega)
  case last =>
    have htext : trimEnd 0 (s.text.bytes 0 (13 * p) ++ s.ibytes 1 14) = trimEnd 0 T := by
      refine trimEnd_of_getD (by simp; omega) fun k hk => ?_
      rw [List.length_append, TextCollector.bytes_length, State.ibytes_length] at hk
      by_cases hk' : k < 13 * p
      · rw [List.getD_append _ _ _ _ (by simpa), List.getD_eq_getElem?_getD, TextCollector.bytes_getElem?, Nat.sub_zero,
          if_pos hk', Nat.zero_add]
        exact hs.bytes k hk'
      · rw [List.getD_append_right _ _ _ _ (by simpa using hk'), TextCollector.bytes_length,
          State.ibytes_getD _ _ _ _ (by omega), hB.text (by omega)]
        congr 1
        omega
    obtain ⟨herror, -, h0, h1, -, -, hob, hidle, -⟩ := (htext ▸ hlast h).of_next ht
    exact ⟨herror, h0, h1, hob, hidle⟩

end Block

/-- Settles O46, by induction over the blocks. -/
theorem textRoundTrip : Obligations.TextRoundTrip := by
  intro s t len before after hlen hpack n hidle hblocks hruns hchain text
  obtain ⟨-, hob, -⟩ := (textPack_yields s hlen).of_next hpack
  have hlength : (s.ibytes 0 len.toNat).length = len.toNat := s.ibytes_length 0 len.toNat
  have hcount : textBlockCount (s.ibytes 0 len.toNat).length = n := by rw [hlength]; rfl
  have hn : n ≤ 15 := by omega
  have hfits : (s.ibytes 0 len.toNat).length ≤ 13 * n := by omega
  have hin : ∀ p < n, BlockInIbuf (before p) (s.ibytes 0 len.toNat) n p := fun p hp k hk => by
    rw [hblocks p hp k hk, ob_of_textFrag hob (hcount ▸ hp) hk, hcount]
  have hholds : ∀ p < n, Holds (before p).text (s.ibytes 0 len.toNat) n p := by
    intro p hp
    induction p with
    | zero => exact ⟨fun _ => hidle, nofun, nofun⟩
    | succ p ih =>
      have hp' : p < n := by omega
      rw [hchain p hp]
      exact ((textAccept_block hn hp' (ih hp') (hin p hp') (hruns p hp')).1 hp).2.2
  have hblock : ∀ p (hp : p < n), _ := fun p hp => textAccept_block hn hp (hholds p hp) (hin p hp) (hruns p hp)
  refine ⟨fun p hp => ?stored, (hblock (n - 1) (by omega)).2 (by omega) hfits⟩
  case stored =>
    obtain ⟨herror, h0, -⟩ := (hblock p (by omega)).1 hp
    exact ⟨herror, h0⟩

end Sys2Proof.Machine
end

section
/-! # The LICH collector (48_stream_packet_ip.md R282, R283)

A chunk is offered to the collector that its stream id selects: `forStream`. -/

namespace Sys2Proof.Machine

theorem LichCollector.bitmap_toNat (l : LichCollector) : l.bitmap.toNat = validBitmap l := by
  have h := l.stat_toNat
  simp only [LichCollector.stat, toNat_fieldAbove, BitVec.toNat_ofBool, BitVec.toNat_ofNat] at h
  omega

theorem LichCollector.slots_toList (l : LichCollector) : l.slots.toList = (List.finRange 6).map fun k => l.slots[k] :=
  List.ext_getElem (by simp) fun i hi hi' => by simp

theorem LichCollector.incomplete_iff (l : LichCollector) :
    l.incomplete = true ↔ ∃ k : Fin 6, l.slots[k].valid = false := by
  simp [LichCollector.incomplete, LichCollector.slots_toList]

theorem LichCollector.assembled_eq (l : LichCollector) :
    l.assembled = (List.finRange 6).flatMap fun k => beBytes 5 l.slots[k].data.toNat := by
  rw [LichCollector.assembled, l.slots_toList, List.flatMap_map]

/-- A complete collector has every slot in its bitmap. -/
theorem validBitmap_of_complete {l : LichCollector} (h : ∀ k : Fin 6, l.slots[k].valid = true) :
    validBitmap l = 0x3F := by
  simp only [validBitmap, h, if_true]
  rfl

theorem validBitmap_lt (l : LichCollector) : validBitmap l < 2 ^ 32 := by
  rw [← l.bitmap_toNat]
  exact l.bitmap.isLt.trans (by decide)

/-! ## `lich_accept` (R282) -/

theorem LichAction.code_le (a : LichAction) (h : a ≠ .dropped) : a.code ≤ 3 := by
  cases a
  case dropped => exact absurd rfl h
  all_goals decide

theorem rejectedError_eq (a : LichAction) :
    rejectedError a = if a.code = 3 then some (.reassembly .dupMismatch) else none := by
  cases a <;> rfl

theorem LichCollector.forStream_keyed (l : LichCollector) (sid : BitVec 16) :
    (l.forStream sid).sid = sid ∧ (l.forStream sid).sidValid = true := by
  rcases l.forStream_cases sid with ⟨-, e⟩ | ⟨hvalid, hsid, e⟩
  · rw [e]
    exact ⟨rfl, rfl⟩
  · rw [e]
    exact ⟨hsid.symm, hvalid⟩

theorem LichCollector.forStream_slot (l : LichCollector) (sid : BitVec 16) (j : Fin 6) :
    (l.forStream sid).slots[j]
      = if l.sidValid = false ∨ sid ≠ l.sid then { valid := false, data := 0, metric := 0 } else l.slots[j] := by
  rw [LichCollector.forStream]
  split
  · simp [Slot.empty]
  · rfl

/-- A collector keyed to a stream is the one that the stream's next chunk meets. -/
theorem LichCollector.forStream_of_keyed {l : LichCollector} {sid : BitVec 16} (hsid : l.sid = sid)
    (hvalid : l.sidValid = true) : l.forStream sid = l :=
  if_neg (by simp [hsid, hvalid])

section Accept

variable (l : LichCollector) (D : BitVec 40) (k : Fin 6) (m : Word) (sid : BitVec 16)

theorem lichAccept_not_dropped : (lichAccept l D k m sid).2 ≠ .dropped := by
  rcases lichAccept_cases l D k m sid with ⟨-, e⟩ | ⟨-, -, e⟩ | ⟨-, -, -, e⟩ | ⟨-, -, -, e⟩ <;> rw [e] <;> nofun

theorem lichAccept_keyed : (lichAccept l D k m sid).1.sid = sid ∧ (lichAccept l D k m sid).1.sidValid = true := by
  have hkeyed := l.forStream_keyed sid
  rcases lichAccept_cases l D k m sid with ⟨-, e⟩ | ⟨-, -, e⟩ | ⟨-, -, -, e⟩ | ⟨-, -, -, e⟩ <;> rw [e] <;> exact hkeyed

/-- Another slot is as in the collector that met the chunk. -/
theorem lichAccept_slot_of_ne {j : Fin 6} (hj : j ≠ k) :
    (lichAccept l D k m sid).1.slots[j] = (l.forStream sid).slots[j] := by
  have hput : ((l.forStream sid).put k D m).slots[j] = (l.forStream sid).slots[j] := by
    rw [LichCollector.put_slot, if_neg hj]
  rcases lichAccept_cases l D k m sid with ⟨-, e⟩ | ⟨-, -, e⟩ | ⟨-, -, -, e⟩ | ⟨-, -, -, e⟩ <;> rw [e]
  all_goals assumption

theorem lichAccept_offered :
    LichOffered l (lichAccept l D k m sid).1 D k m sid (lichAccept l D k m sid).2.code := by
  obtain ⟨hsid, hvalid⟩ := lichAccept_keyed l D k m sid
  refine ⟨hsid, hvalid, fun j hj => (lichAccept_slot_of_ne l D k m sid hj).trans (l.forStream_slot sid j), ?_⟩
  have hput : ((l.forStream sid).put k D m).slots[k] = { valid := true, data := D, metric := m } := by
    rw [LichCollector.put_slot, if_pos rfl]
  simp only [← LichCollector.forStream_slot]
  rcases lichAccept_cases l D k m sid with ⟨hempty, e⟩ | ⟨hfull, hsame, e⟩ | ⟨hfull, hother, hlower, e⟩ |
    ⟨hfull, hother, hnot, e⟩
  · rw [e, if_pos hempty]
    exact ⟨rfl, hput⟩
  · rw [e, if_neg (ne_false_of_eq_true hfull), if_pos hsame]
    exact ⟨rfl, rfl⟩
  · rw [e, if_neg (ne_false_of_eq_true hfull), if_neg hother, if_pos (BitVec.lt_def.1 hlower)]
    exact ⟨rfl, hput⟩
  · rw [e, if_neg (ne_false_of_eq_true hfull), if_neg hother, if_neg (mt BitVec.lt_def.2 hnot)]
    exact ⟨rfl, rfl⟩

end Accept

end Sys2Proof.Machine
end

section
/-! # The LICH commands (48_stream_packet_ip.md R284 to R287; O47, O48, O49) -/

namespace Sys2Proof.Machine

/-! ## LICH_CHUNK (R284) -/

/-- A bit behind the first byte sequence in OBUF. -/
theorem ObHolds.obBit_pack_after {t : State} {A : Bytes} {c : Bits} (hA : ObHolds t 0 A)
    (hc : ObHolds t A.length (pack c)) {k : Nat} (hk : k < 8 * ((c.length + 7) / 8)) :
    t.obBit (8 * A.length + k) = c.getD k false := by
  have hwhole := hA.append (C := pack c) (by rwa [Nat.zero_add])
  rw [← pack_bits_append] at hwhole
  rw [hwhole.obBit_pack (by rw [List.length_append, bits_length]; omega),
    List.getD_append_right _ _ _ _ (by rw [bits_length]; omega), bits_length, Nat.add_sub_cancel_left]

theorem lichUnit_hw_toNat (k : BitVec 3) (D : BitVec 40) :
    (lichUnit hw k D).toNat = k.toNat * 2 ^ 45 + D.toNat * 2 ^ 5 := by
  have hunit : (lichUnit hw k D).toNat = (k ++ (D ++ 0#5)).toNat := rfl
  rw [hunit, toNat_fieldAbove, toNat_fieldAbove]
  simp

theorem lsfChunk_toNat (L : Bytes) (k : Nat) : (lsfChunk L k).toNat = beNat (slice L (5 * k) (5 * k + 5)) := by
  have h := beNat_lt (slice L (5 * k) (5 * k + 5))
  rw [lsfChunk, BitVec.toNat_ofNat, Nat.mod_eq_of_lt]
  exact h.trans_le (Nat.pow_le_pow_right (by decide) (by rw [slice_length]; omega : _ ≤ 5))

/-- The unit of the chunk that ARG0 names (48_stream_packet_ip.md R284). -/
def State.lichChunkUnit (s : State) : BitVec 48 :=
  Machine.lichUnit hw (BitVec.ofNat 3 (s.argReg 0).toNat) (lsfChunk (s.ibytes 0 30) (s.argReg 0).toNat)

theorem State.lichChunkUnit_toNat (s : State) (h : (s.argReg 0).toNat ≤ 5) :
    s.lichChunkUnit.toNat = (s.argReg 0).toNat * 2 ^ 45
      + beNat (s.ibytes (5 * (s.argReg 0).toNat) (5 * (s.argReg 0).toNat + 5)) * 2 ^ 5 := by
  rw [State.lichChunkUnit, lichUnit_hw_toNat, lsfChunk_toNat, s.slice_ibytes_zero (by omega), BitVec.toNat_ofNat,
    Nat.mod_eq_of_lt (by omega)]

theorem lichChunk_yields (s : State) (h : (s.argReg 0).toNat ≤ 5) :
    Yields .lichChunk s none [] 18 fun t =>
      ObHolds t 0 (beBytes 6 s.lichChunkUnit.toNat) ∧ ObHolds t 6 (pack (lichEncode hw s.lichChunkUnit)) := by
  have hrun : commandRun .lichChunk s
      = ((s.obWrite 0 (beBytes 6 s.lichChunkUnit.toNat)).obWrite 6 (pack (lichEncode hw s.lichChunkUnit))).ok :=
    if_neg (not_lt.2 h)
  refine .of_writes hrun rfl ((WritesOnly.start.obWrite (by simp)).obWrite (by simp)) (by decide) (by decide)
    ⟨?_, by simp⟩
  simp only [State.ok_state, obHolds_complete]
  exact (ObHolds.write s 0 _).keep (.inl (by simp))

/-! ## LICH_RESET (R285) -/

theorem lichReset_gives (s : State) (h : (s.argReg 0).toNat < 2 ^ 16) :
    Gives .lichReset s none [] 0 fun t =>
      t.pkt = s.pkt ∧ t.text = s.text ∧ t.lich = LichCollector.keyed (s.argField 0 16) :=
  have hrun : commandRun .lichReset s = (s.setLich (LichCollector.keyed (s.argField 0 16))).ok :=
    if_neg (State.not_argHigh_of_lt h)
  .of_writes hrun rfl WritesOnly.start.setLich (by decide) ⟨rfl, rfl, rfl⟩

theorem LichCollector.keyed_stat_toNat (sid : BitVec 16) :
    (LichCollector.keyed sid).stat.toNat = sid.toNat * 2 ^ 16 + 0x100 := by
  have hempty : validBitmap (LichCollector.keyed sid) = 0 := rfl
  rw [LichCollector.stat_toNat, hempty, LichCollector.keyed_sid, LichCollector.keyed_sidValid, Bool.toNat_true]
  omega

/-- Settles O47: the unit as a number, and the codewords of its four words. -/
theorem lichChunkAndResetCommands : Obligations.LichChunkAndResetCommands := by
  intro s k
  refine ⟨fun hk => (lichChunk_yields s hk).imp ?chunk, fun hk => .of_commandRun (if_pos hk),
    fun hk => (lichReset_gives s hk).imp ?reset, fun hk => .of_commandRun (if_pos ((s.argHigh_ne_zero_iff 0 16).2 hk))⟩
  case chunk =>
    rintro t ⟨hunit, hcode⟩
    have hword := fun j (hj : j < 4) => unitWord_ofNat s.lichChunkUnit.toNat hj
    rw [BitVec.ofNat_toNat, BitVec.setWidth_eq] at hword
    rw [← s.lichChunkUnit_toNat hk]
    refine ⟨hunit, fun j hj b hb => ?_⟩
    have hbit := hunit.obBit_pack_after (by rwa [beBytes_length]) (k := 24 * j + b) (by rw [lichEncode_length]; omega)
    rw [beBytes_length, lichEncode_getD hw _ hj hb, hword j hj] at hbit
    rw [Nat.add_assoc, ← hbit]
  case reset =>
    rintro t ⟨hpkt, htext, hlich⟩
    rw [hlich, LichCollector.keyed_stat_toNat, LichCollector.keyed_sid, State.argField_toNat hk]
    exact ⟨hpkt, htext, fun j => by simp [Slot.empty], rfl, rfl, rfl⟩

/-! ## LICH_ACCEPT (R286) -/

/-- `lich_accept` of the operands of LICH_ACCEPT. -/
def State.lichAccepted (s : State) : LichCollector × LichAction :=
  lichAccept s.lich (BitVec.ofNat 40 (beNat (s.ibytes 0 5))) (Fin.ofNat 6 (s.argReg 0).toNat) (s.argReg 1)
    (BitVec.ofNat 16 (s.argReg 2).toNat)

theorem lichAccept_gives (s : State) (h0 : (s.argReg 0).toNat ≤ 5) (h2 : (s.argReg 2).toNat < 2 ^ 16) :
    Gives .lichAccept s (rejectedError s.lichAccepted.2) [0, 1] 0 fun t =>
      t.pkt = s.pkt ∧ t.text = s.text ∧ ResIs t 0 (validBitmap t.lich) ∧ ResIs t 1 s.lichAccepted.2.code
      ∧ t.lich = s.lichAccepted.1 := by
  have hrun : commandRun .lichAccept s
      = (((s.setLich s.lichAccepted.1).setResBitmap 0).setResNat 1 s.lichAccepted.2.code).raiseIf
          (rejectedError s.lichAccepted.2) := by
    show lichAcceptRun s = _
    rw [lichAcceptRun, if_neg (not_or.2 ⟨not_lt.2 h0, State.not_argHigh_of_lt h2⟩), State.argField_eq_ofNat]
    rfl
  have hcode : s.lichAccepted.2.code ≤ 3 := LichAction.code_le _ (lichAccept_not_dropped _ _ _ _ _)
  generalize s.lichAccepted = r at hrun hcode
  refine .of_writes hrun rfl WritesOnly.start.setLich.setResBitmap.setResNat (by decide)
    ⟨rfl, rfl, ?_, .of_ofNat (by omega) (by simp), rfl⟩
  have hlich : (((s.setLich r.1).setResBitmap 0).setResNat 1 r.2.code).lich = r.1 := rfl
  simp only [State.raiseIf_state, State.complete_lich, hlich, ← LichCollector.bitmap_toNat]
  exact .of_setWidth (by decide) (by simp)

/-- Settles O48: `lich_accept` said of the collector before and after. -/
theorem lichAcceptCommand : Obligations.LichAcceptCommand := by
  refine fun s => ⟨fun h0 h2 =>
    ⟨s.lichAccepted.2.code, LichAction.code_le _ (lichAccept_not_dropped _ _ _ _ _), ?accept⟩,
    fun h => .of_commandRun (if_pos (h.imp id (s.argHigh_ne_zero_iff 2 16).2))⟩
  rw [← rejectedError_eq]
  refine (lichAccept_gives s h0 h2).imp ?_
  rintro t ⟨hpkt, htext, hbitmap, haction, hlich⟩
  refine ⟨hpkt, htext, hbitmap, haction, ?_⟩
  rw [hlich]
  exact lichAccept_offered ..

/-! ## LICH_ASSEMBLE (R287) -/

theorem lichAssemble_missing (s : State) (h : ∃ k : Fin 6, s.lich.slots[k].valid = false) :
    Yields .lichAssemble s (some (.reassembly .missing)) [0] 0 fun t => ResIs t 0 (validBitmap s.lich) := by
  have hrun : commandRun .lichAssemble s = (s.setResBitmap 0).raise (.reassembly .missing) :=
    if_pos (s.lich.incomplete_iff.2 h)
  rw [← LichCollector.bitmap_toNat]
  exact .of_writes hrun rfl WritesOnly.start.setResBitmap (by decide) (by decide)
    (.of_setWidth (by decide) (by simp))

theorem lichAssemble_yields (s : State) (h : ∀ k : Fin 6, s.lich.slots[k].valid = true) :
    let L := s.lich.assembled
    Yields .lichAssemble s (lsfVerdict s.v2En s.v3En L) [0, 1, 2, 3] 30 fun t =>
      ResIs t 0 0x3F ∧ ObHolds t 0 L ∧ ResIs t 1 (beNat (slice L 12 14))
      ∧ ResIs t 2 (versionCode (beNat (slice L 12 14))) ∧ ResIs t 3 (crc16 (slice L 0 28)).toNat := by
  intro L
  have hcomplete : ¬ s.lich.incomplete = true := fun hincomplete =>
    have ⟨k, hk⟩ := s.lich.incomplete_iff.1 hincomplete
    ne_false_of_eq_true (h k) hk
  have hlen : L.length = 30 := s.lich.assembled_length
  have hrun : commandRun .lichAssemble s
      = (((((s.setResBitmap 0).obWrite 0 L).setRes 1 ((lsfType L).setWidth 32)).setResNat 2
          (detect (lsfType L)).code).setRes 3 ((crc16 (slice L 0 28)).setWidth 32)).raiseIf (s.lsfCheck L) := by
    show lichAssembleRun s = _
    rw [lichAssembleRun, if_neg hcomplete]
  rw [← lsfType_toNat, ← detect_code, ← State.lsfCheck_eq, ← validBitmap_of_complete h, ← LichCollector.bitmap_toNat]
  clear_value L
  exact .of_writes hrun rfl ((WritesOnly.start.setResBitmap.obWrite (by simp [hlen])).setRes.setResNat.setRes)
    (by decide) (by decide)
    ⟨.of_setWidth (by decide) (by simp), by simp, .of_setWidth (by decide) (by simp),
      .of_ofNat (detect_code _ ▸ versionCode_lt _) (by simp), .of_setWidth (by decide) (by simp)⟩

/-- Settles O49: with a slot empty, and with none. -/
theorem lichAssembleCommand : Obligations.LichAssembleCommand := by
  intro s L
  have hL : L = s.lich.assembled := s.lich.assembled_eq.symm
  rw [hL]
  exact ⟨lichAssemble_missing s, lichAssemble_yields s⟩

end Sys2Proof.Machine
end

section
/-! # A soft-decoded LICH unit offered to the collector (44_golay.md R185, 48_stream_packet_ip.md R288; O50) -/

namespace Sys2Proof.Machine

/-! ## The soft decode of any 96 soft bits -/

theorem lichSoftDecode_ctr (Y : Bytes) :
    (lichSoftDecode hw Y).ctr.toNat = (lichSoftDecode hw Y).unit.toNat / 2 ^ 45 := ctrOf_hw_toNat _

/-- A unit that is not bad has the counter of a chunk (R185). -/
theorem lichSoftDecode_ctr_le {Y : Bytes} (h : (lichSoftDecode hw Y).bad = false) :
    (lichSoftDecode hw Y).ctr.toNat ≤ 5 :=
  not_lt.1 (of_decide_eq_false (Bool.or_eq_false_iff.1 h).2)

theorem lichSoftDecode_metric_lt (Y : Bytes) : (lichSoftDecode hw Y).metric < 2 ^ 32 := by
  rw [lichSoftDecode]
  -- the four results become variables, or the kernel runs the search for each
  generalize hr : (fun j => golaySoft hw ((fun j => slice Y (24 * j) (24 * j + 24)) j)) = r
  have bound : ∀ j, (r j).metric ≤ 6120 := fun j => by
    obtain ⟨d, hd, -⟩ := golaySoft_least hw (slice Y (24 * j) (24 * j + 24))
    rw [← congrFun hr j, hd]
    exact golayMetric_le ..
  have h0 := bound 0
  have h1 := bound 1
  have h2 := bound 2
  have h3 := bound 3
  show (r 0).metric + (r 1).metric + (r 2).metric + (r 3).metric < 2 ^ 32
  omega

/-! ## The offer (R288) -/

theorem chunkOf_hw (u : BitVec 48) : chunkOf hw u = BitVec.ofNat 40 (u.toNat / 2 ^ 5) :=
  BitVec.eq_of_toNat_eq (by
    show (u.extractLsb' 5 40).toNat = _
    rw [BitVec.extractLsb'_toNat, BitVec.toNat_ofNat, Nat.shiftRight_eq_div_pow])

theorem offerLich_of_bad (l : LichCollector) {d : LichDecoded} (sid : BitVec 16) (h : d.bad = true) :
    offerLich hw l d sid = (l, .dropped) := if_pos h

/-- What a unit that is not bad does to the collector. -/
theorem offerLich_offered (l : LichCollector) {d : LichDecoded} (sid : BitVec 16) (h : d.bad = false)
    (hctr : d.ctr.toNat = d.unit.toNat / 2 ^ 45) :
    (offerLich hw l d sid).2.code ≤ 3
    ∧ LichOffered l (offerLich hw l d sid).1 (BitVec.ofNat 40 (d.unit.toNat / 2 ^ 5))
        (Fin.ofNat 6 (d.unit.toNat / 2 ^ 45)) (BitVec.ofNat 32 d.metric) sid (offerLich hw l d sid).2.code := by
  have hoffer : offerLich hw l d sid = lichAccept l (BitVec.ofNat 40 (d.unit.toNat / 2 ^ 5))
      (Fin.ofNat 6 (d.unit.toNat / 2 ^ 45)) (BitVec.ofNat 32 d.metric) sid := by
    rw [offerLich, if_neg (ne_true_of_eq_false h), chunkOf_hw, hctr]
  rw [hoffer]
  exact ⟨LichAction.code_le _ (lichAccept_not_dropped _ _ _ _ _), lichAccept_offered ..⟩

theorem LichAction.code_lt (a : LichAction) : a.code < 2 ^ 32 := by
  cases a <;> decide

/-! ## LICH_RX (R288) -/

theorem lichRx_gives {s : State} (harg : (s.argReg 0).toNat < 2 ^ 16) {d : LichDecoded}
    (hd : lichSoftDecode hw (s.ibytes 0 96) = d) {l : LichCollector} {a : LichAction}
    (hoffer : offerLich hw s.lich d (BitVec.ofNat 16 (s.argReg 0).toNat) = (l, a)) :
    Gives .lichRx s (rejectedError a) [0, 1, 2, 3] 6 fun t =>
      (t.pkt = s.pkt ∧ t.text = s.text ∧ ObHolds t 0 (beBytes 6 d.unit.toNat) ∧ ResIs t 0 (validBitmap t.lich)
        ∧ ResIs t 2 d.metric ∧ ResIs t 3 d.ctr.toNat) ∧ ResIs t 1 a.code ∧ t.lich = l := by
  have hmetric : d.metric < 2 ^ 32 := hd ▸ lichSoftDecode_metric_lt _
  have hrun : commandRun .lichRx s
      = ((((((s.obWrite 0 (beBytes 6 d.unit.toNat)).setResNat 2 d.metric).setRes 3 (d.ctr.setWidth 32)).setLich
          l).setResBitmap 0).setResNat 1 a.code).raiseIf (rejectedError a) := by
    show lichRxRun hw s = _
    rw [lichRxRun, if_neg (State.not_argHigh_of_lt harg)]
    simp only [hd, State.argField_eq_ofNat, hoffer]
  have hframe := commandRun_framed .lichRx s
  rw [hrun] at hframe
  refine .of_writes hrun rfl
    ((WritesOnly.start.obWrite (by simp)).setResNat.setRes.setLich.setResBitmap.setResNat) (by decide)
    ⟨⟨hframe.pkt (by decide), hframe.text (by decide), by simp, ?_, .of_ofNat hmetric (by simp),
      .of_setWidth (by decide) (by simp)⟩, .of_ofNat a.code_lt (by simp), by simp⟩
  have hbitmap := LichCollector.bitmap_toNat l
  simp only [State.raiseIf_state, State.complete_lich, State.setResNat_lich, State.setResBitmap_lich,
    State.setLich_lich]
  rw [← hbitmap]
  exact .of_setWidth (by decide) (by simp)

/-- Settles O50: the bad unit and the offered one. -/
theorem lichRxCommand : Obligations.LichRxCommand := by
  intro s d wrote
  have hctr : d.ctr.toNat = d.unit.toNat / 2 ^ 45 := lichSoftDecode_ctr _
  have hle : d.bad = false → d.ctr.toNat ≤ 5 := lichSoftDecode_ctr_le
  have hd : lichSoftDecode hw (s.ibytes 0 96) = d := rfl
  clear_value d
  refine ⟨fun harg hbad => ?bad, fun harg hgood => ?good,
    fun harg => .of_commandRun (if_pos ((s.argHigh_ne_zero_iff 0 16).2 harg))⟩
  case bad =>
    have hgives := lichRx_gives harg hd (offerLich_of_bad _ _ hbad)
    rw [hctr] at hgives
    exact hgives
  case good =>
    obtain ⟨hcode, hoffered⟩ := offerLich_offered s.lich (BitVec.ofNat 16 (s.argReg 0).toNat) hgood hctr
    refine ⟨hctr ▸ hle hgood, _, hcode, ?_⟩
    rw [← rejectedError_eq]
    refine (lichRx_gives harg hd rfl).imp ?_
    rintro t ⟨hwrote, haction, hlich⟩
    rw [hctr] at hwrote
    exact ⟨hwrote, haction, hlich ▸ hoffered⟩

end Sys2Proof.Machine
end

section
/-! # The chunks of one LSF (48_stream_packet_ip.md R281 to R283; O51)

Whatever was offered under the stream id, a valid slot holds the LSF's chunk, and the slots offered are valid. -/

namespace Sys2Proof.Machine

/-- The collector's valid slots hold chunks of L, and the slots seen are valid. -/
structure Assembling (l : LichCollector) (L : Bytes) (seen : Fin 6 → Prop) : Prop where
  data : ∀ k : Fin 6, l.slots[k].valid = true → l.slots[k].data = lsfChunk L k
  valid : ∀ k : Fin 6, seen k → l.slots[k].valid = true

section Offer

variable {l : LichCollector} {L : Bytes} {seen : Fin 6 → Prop} {k : Fin 6} {m : Word}

theorem Assembling.put (h : Assembling l L seen) :
    Assembling (l.put k (lsfChunk L k) m) L fun j => j = k ∨ seen j := by
  refine ⟨fun j hj => ?_, fun j hj => ?_⟩ <;> rw [LichCollector.put_slot] at *
  · split
    next heq => rw [heq]
    next hne => exact h.data j (by rwa [if_neg hne] at hj)
  · split
    next => rfl
    next hne => exact h.valid j (hj.resolve_left hne)

/-- A chunk of the LSF is never rejected. -/
theorem Assembling.lichAccept {sid : BitVec 16} (h : Assembling (l.forStream sid) L seen) :
    (lichAccept l (lsfChunk L k) k m sid).2 ≠ .rejected
    ∧ Assembling ((lichAccept l (lsfChunk L k) k m sid).1.forStream sid) L fun j => j = k ∨ seen j := by
  obtain ⟨hsid, hvalid⟩ := lichAccept_keyed l (lsfChunk L k) k m sid
  rw [LichCollector.forStream_of_keyed hsid hvalid]
  rcases lichAccept_cases l (lsfChunk L k) k m sid with ⟨-, e⟩ | ⟨hfull, -, e⟩ | ⟨hfull, hother, -⟩ | ⟨hfull, hother, -⟩
  · rw [e]
    exact ⟨nofun, h.put⟩
  · rw [e]
    exact ⟨nofun, h.data, fun j hj => hj.elim (fun heq => heq ▸ hfull) (h.valid j)⟩
  all_goals exact absurd (h.data k hfull) hother

end Offer

/-! ## The six chunks in order -/

theorem slice_append_slice (B : Bytes) {i j k : Nat} (hij : i ≤ j) (hjk : j ≤ k) :
    slice B i j ++ slice B j k = slice B i k := by
  rw [slice, slice, slice, show k - i = (j - i) + (k - j) by omega, List.take_add, List.drop_drop,
    Nat.add_sub_cancel' hij]

theorem beBytes_lsfChunk {L : Bytes} (hL : L.length = 30) (k : Fin 6) :
    beBytes 5 (lsfChunk L k).toNat = slice L (5 * k) (5 * k + 5) := by
  have h := beBytes_beNat (slice L (5 * k) (5 * k + 5))
  rwa [slice_length, show min (5 * k.val + 5 - 5 * k) (L.length - 5 * k) = 5 by omega, ← lsfChunk_toNat] at h

/-- A complete collector assembles to the LSF. -/
theorem Assembling.assembled_eq {l : LichCollector} {L : Bytes} {seen : Fin 6 → Prop} (h : Assembling l L seen)
    (hL : L.length = 30) (hall : ∀ k, seen k) : l.assembled = L := by
  have hchunk : ∀ k : Fin 6, beBytes 5 l.slots[k].data.toNat = slice L (5 * k) (5 * k + 5) := fun k => by
    rw [h.data k (h.valid k (hall k)), beBytes_lsfChunk hL]
  have hwhole : slice L 0 30 = L := by rw [← hL, slice_self]
  rw [l.assembled_eq]
  simp only [hchunk]
  refine Eq.trans ?_ hwhole
  rw [← slice_append_slice L (by decide : 0 ≤ 25) (by decide : 25 ≤ 30),
    ← slice_append_slice L (by decide : 0 ≤ 20) (by decide : 20 ≤ 25),
    ← slice_append_slice L (by decide : 0 ≤ 15) (by decide : 15 ≤ 20),
    ← slice_append_slice L (by decide : 0 ≤ 10) (by decide : 10 ≤ 15),
    ← slice_append_slice L (by decide : 0 ≤ 5) (by decide : 5 ≤ 10)]
  simp [List.finRange_succ]

/-! ## The offers one after the other -/

theorem State.ibytes_of_ibHolds {s : State} {B : Bytes} {n : Nat} (h : IbHolds s 0 B) (hn : B.length = n) :
    s.ibytes 0 n = B := by
  subst hn
  refine List.ext_getElem (by simp) fun k hk hk' => ?_
  rw [State.ibytes_getElem, h k hk']

/-- The chunk that LICH_ACCEPT reads. -/
theorem State.lichAccepted_of_chunk {s : State} {L : Bytes} {k : Fin 6} {sid : BitVec 16} (hL : L.length = 30)
    (h0 : (s.argReg 0).toNat = k.val) (h2 : (s.argReg 2).toNat = sid.toNat)
    (hib : IbHolds s 0 (slice L (5 * k.val) (5 * k.val + 5))) :
    s.lichAccepted = lichAccept s.lich (lsfChunk L k) k (s.argReg 1) sid := by
  have hbytes := State.ibytes_of_ibHolds hib (n := 5) (by rw [slice_length]; omega)
  rw [State.lichAccepted, hbytes, h0, h2, BitVec.ofNat_toNat, BitVec.setWidth_eq, Fin.ofNat_val_eq_self]
  rfl

/-- Settles O51, by induction over the offers. -/
theorem lichRoundTrip : Obligations.LichRoundTrip := by
  intro L n order before after sid s' hL hn hnew hoperands hruns hchain hlast hall
  have haccepted : ∀ j (hj : j < n), (before j).lichAccepted
      = lichAccept (before j).lich (lsfChunk L (order j)) (order j) ((before j).argReg 1) sid := fun j hj =>
    have ⟨h0, h2, hib⟩ := hoperands j hj
    State.lichAccepted_of_chunk hL h0 h2 hib
  have hgives : ∀ j (hj : j < n), (after j).error = rejectedError (before j).lichAccepted.2
      ∧ (after j).lich = (before j).lichAccepted.1 := fun j hj => by
    obtain ⟨h0, h2, -⟩ := hoperands j hj
    obtain ⟨herror, -, -, -, -, hlich⟩ := (lichAccept_gives (before j) (by omega) (h2 ▸ sid.isLt)).of_next (hruns j hj)
    exact ⟨herror, hlich⟩
  have hbefore : ∀ j < n, Assembling ((before j).lich.forStream sid) L fun k => ∃ i < j, order i = k := by
    intro j hj
    induction j with
    | zero =>
      refine ⟨fun k hk => ?_, fun k ⟨i, hi, _⟩ => absurd hi (Nat.not_lt_zero i)⟩
      rw [LichCollector.forStream_slot, if_pos (hnew.imp id Ne.symm)] at hk
      exact absurd hk Bool.false_ne_true
    | succ j ih =>
      have hoffer := ((ih (by omega)).lichAccept (k := order j) (m := (before j).argReg 1)).2
      rw [← haccepted j (by omega), ← (hgives j (by omega)).2, ← hchain j hj] at hoffer
      refine ⟨hoffer.data, fun k ⟨i, hi, hk⟩ => hoffer.valid k ?_⟩
      rcases Nat.lt_succ_iff_lt_or_eq.1 hi with hlt | heq
      · exact .inr ⟨i, hlt, hk⟩
      · exact .inl (heq ▸ hk.symm)
  have hoffer := fun j (hj : j < n) => (hbefore j hj).lichAccept (k := order j) (m := (before j).argReg 1)
  refine ⟨fun j hj => ?accepted, ?assembled⟩
  case accepted =>
    have hkept := (hoffer j hj).1
    rw [← haccepted j hj] at hkept
    rw [(hgives j hj).1, rejectedError, if_neg hkept]
  case assembled =>
    have hend := (hoffer (n - 1) (by omega)).2
    obtain ⟨hsid, hvalid⟩ := lichAccept_keyed (before (n - 1)).lich (lsfChunk L (order (n - 1))) (order (n - 1))
      ((before (n - 1)).argReg 1) sid
    rw [LichCollector.forStream_of_keyed hsid hvalid, ← haccepted _ (by omega), ← (hgives _ (by omega)).2,
      ← hlast] at hend
    have hseen : ∀ k, k = order (n - 1) ∨ ∃ i < n - 1, order i = k := fun k => by
      obtain ⟨j, hj, hk⟩ := hall k
      by_cases h : j = n - 1
      · exact .inl (h ▸ hk.symm)
      · exact .inr ⟨j, by omega, hk⟩
    have hyields := lichAssemble_yields s' fun k => hend.valid k (hseen k)
    simp only [hend.assembled_eq hL hseen] at hyields
    refine hyields.imp ?_
    rintro t ⟨hbitmap, hob, htype, -⟩
    exact ⟨hbitmap, hob, htype⟩

end Sys2Proof.Machine
end

section
/-! # Packets and their chunks (48_stream_packet_ip.md R289, R290, R292, R293; O52) -/

namespace Sys2Proof.Machine

/-! ## PKT_BUILD (R292) -/

/-- The packet that PKT_BUILD forms: the protocol id, the payload and their CRC (R289). -/
def State.packetBody (s : State) (n : Nat) : Bytes := BitVec.ofNat 8 (s.argReg 0).toNat :: s.ibytes 0 n

@[simp] theorem State.packetBody_length (s : State) (n : Nat) : (s.packetBody n).length = n + 1 := by
  simp [State.packetBody]

def State.packet (s : State) (n : Nat) : Bytes := s.packetBody n ++ beBytes 2 (crc16 (s.packetBody n)).toNat

@[simp] theorem State.packet_length (s : State) (n : Nat) : (s.packet n).length = n + 3 := by
  simp [State.packet]

theorem pktBuild_yields (s : State) {len : BitVec 16} (hlen : len.toNat ≤ 822) (harg : (s.argReg 0).toNat < 256) :
    Yields (.pktBuild len) s none [0, 1, 2] (len.toNat + 3) fun t =>
      ObHolds t 0 (s.packet len.toNat) ∧ ResIs t 0 (len.toNat + 3) ∧ ResIs t 1 ((len.toNat + 27) / 25)
      ∧ ResIs t 2 (crc16 (s.packetBody len.toNat)).toNat := by
  have hrun : commandRun (.pktBuild len) s
      = ((((s.obWrite 0 (s.packet len.toNat)).setResNat 0 (len.toNat + 3)).setResNat 1 ((len.toNat + 27) / 25)).setRes 2
          ((crc16 (s.packetBody len.toNat)).setWidth 32)).ok := by
    show pktBuildRun len s = _
    rw [pktBuildRun, if_neg (not_lt.2 hlen), if_neg (State.not_argHigh_of_lt harg), State.argField_eq_ofNat]
    rfl
  exact .of_writes hrun rfl (WritesOnly.start.obWrite (by simp)).setResNat.setResNat.setRes (by decide)
    (by simp [NoCollector, lichCommands, pktCommands, textCommands])
    ⟨by simp, .of_ofNat (by omega) (by simp), .of_ofNat (by omega) (by simp), .of_setWidth (by decide) (by simp)⟩

/-! ## The chunks of a packet (R290) -/

theorem chunkMark_toNat (eof : Bool) (c : Nat) : (chunkMark eof c).toNat = eof.toNat * 128 + c % 32 * 4 := by
  rw [chunkMark, toNat_fieldAbove, toNat_fieldAbove, BitVec.toNat_ofBool, BitVec.toNat_ofNat]
  simp

/-- The 25 data bytes of a chunk, 0 past the end of the packet. -/
def chunkData (Q : Bytes) (k : Nat) : Bytes :=
  slice Q (25 * k) (25 * k + 25) ++ List.replicate (25 - (slice Q (25 * k) (25 * k + 25)).length) 0

@[simp] theorem chunkData_length (Q : Bytes) (k : Nat) : (chunkData Q k).length = 25 := by
  simp only [chunkData, List.length_append, List.length_replicate, slice_length]
  omega

theorem chunkData_getD (Q : Bytes) {k b : Nat} (hb : b < 25) : (chunkData Q k).getD b 0 = Q.getD (25 * k + b) 0 := by
  rw [chunkData, getD_append_zeros, slice_getD _ (by omega)]

/-- The metadata byte of a chunk. -/
def chunkMeta (Q : Bytes) (n k : Nat) : Byte :=
  if k + 1 < n then chunkMark false k else chunkMark true (slice Q (25 * k) (25 * k + 25)).length

/-- A chunk is its data and its metadata byte: only the last one is padded. -/
theorem packetChunk_eq (Q : Bytes) (k : Nat) :
    packetChunk Q (chunkCount Q.length) k = chunkData Q k ++ [chunkMeta Q (chunkCount Q.length) k] := by
  rw [packetChunk, chunkMeta, chunkData]
  split
  next h =>
    rw [chunkCount] at h
    have hfull : 25 - (slice Q (25 * k) (25 * k + 25)).length = 0 := by
      rw [slice_length]
      omega
    rw [hfull, List.replicate_zero, List.append_nil]
  next => rfl

theorem packetChunk_length (Q : Bytes) (k : Nat) : (packetChunk Q (chunkCount Q.length) k).length = 26 := by
  rw [packetChunk_eq, List.length_append, chunkData_length, List.length_singleton]

theorem packetChunk_data (Q : Bytes) {k b : Nat} (hb : b < 25) :
    (packetChunk Q (chunkCount Q.length) k).getD b 0 = Q.getD (25 * k + b) 0 := by
  rw [packetChunk_eq, List.getD_append _ _ _ _ (by rwa [chunkData_length]), chunkData_getD Q hb]

theorem packetChunk_meta (Q : Bytes) (k : Nat) :
    (packetChunk Q (chunkCount Q.length) k).getD 25 0 = chunkMeta Q (chunkCount Q.length) k := by
  rw [packetChunk_eq, List.getD_append_right _ _ _ _ (by rw [chunkData_length]), chunkData_length]
  rfl

/-- The metadata byte as a number: the counter before the last chunk, EOF and the byte count in the last. -/
theorem chunkMeta_toNat {Q : Bytes} (hQ : Q.length ≤ 825) {k : Nat} (hk : k < chunkCount Q.length) :
    (chunkMeta Q (chunkCount Q.length) k).toNat
      = if k + 1 < chunkCount Q.length then 4 * k else 128 + 4 * (Q.length - 25 * (chunkCount Q.length - 1)) := by
  rw [chunkMeta, chunkCount] at *
  split
  next h =>
    rw [chunkMark_toNat, Bool.toNat_false]
    omega
  next h =>
    rw [chunkMark_toNat, Bool.toNat_true, slice_length]
    omega

/-! ## PKT_CHUNK (R293) -/

theorem packetChunks_flatten_length (Q : Bytes) : (packetChunks Q).flatten.length = 26 * chunkCount Q.length := by
  simp [packetChunks, List.length_flatten, Function.comp_def, packetChunk_length, Nat.mul_comm]

theorem pktChunk_yields (s : State) {len : BitVec 16} (hpos : 1 ≤ len.toNat) (hlen : len.toNat ≤ 825) :
    Yields (.pktChunk len) s none [0] (26 * chunkCount len.toNat) fun t =>
      ObHolds t 0 (packetChunks (s.ibytes 0 len.toNat)).flatten ∧ ResIs t 0 (chunkCount len.toNat) := by
  have hlength : (s.ibytes 0 len.toNat).length = len.toNat := s.ibytes_length 0 len.toNat
  have hcount : (packetChunks (s.ibytes 0 len.toNat)).length = chunkCount len.toNat := by
    simp [packetChunks]
  have hrun : commandRun (.pktChunk len) s
      = ((s.obWrite 0 (packetChunks (s.ibytes 0 len.toNat)).flatten).setResNat 0 (chunkCount len.toNat)).ok := by
    show pktChunkRun len s = _
    rw [pktChunkRun, if_neg (by omega), if_neg (by omega)]
    simp only [hcount]
  have hwrites := WritesOnly.start.obWrite (s := s) (n := 26 * chunkCount len.toNat) (i := 0)
    (B := (packetChunks (s.ibytes 0 len.toNat)).flatten) (by rw [Nat.zero_add, packetChunks_flatten_length, hlength])
  have hcountLt : chunkCount len.toNat < 2 ^ 32 := by
    rw [chunkCount]
    omega
  exact .of_writes hrun rfl hwrites.setResNat (by decide)
    (by simp [NoCollector, lichCommands, pktCommands, textCommands]) ⟨by simp, .of_ofNat hcountLt (by simp)⟩

/-- A byte of a chunk in OBUF. -/
theorem ob_of_packetChunks {t : State} {Q : Bytes} (hob : ObHolds t 0 (packetChunks Q).flatten) {k b : Nat}
    (hk : k < chunkCount Q.length) (hb : b < 26) :
    t.ob (26 * k + b) = (packetChunk Q (chunkCount Q.length) k).getD b 0 := by
  rw [hob.ob_getD (by rw [packetChunks_flatten_length]; omega), packetChunks, ← List.flatMap_def]
  exact flatMap_range_getD _ (packetChunk_length Q) 0 hk hb

/-- Settles O52: the packet, and the bytes of each chunk. -/
theorem packetBuildCommands : Obligations.PacketBuildCommands := by
  intro s len L n
  refine ⟨fun hlen harg => pktBuild_yields s hlen harg, fun hlen => .of_commandRun (if_pos hlen),
    fun hlen harg => .of_commandRun ?range, fun hpos hlen => (pktChunk_yields s hpos hlen).imp ?chunks,
    fun hzero => .of_commandRun (if_pos hzero), fun hlen => .of_commandRun ?long⟩
  case range => exact (if_neg (not_lt.2 hlen)).trans (if_pos ((s.argHigh_ne_zero_iff 0 8).2 harg))
  case long => exact (if_neg (by omega : ¬ L = 0)).trans (if_pos hlen)
  case chunks =>
    rintro t ⟨hob, hcount⟩
    have hlength : (s.ibytes 0 L).length = L := s.ibytes_length 0 L
    have hn : chunkCount (s.ibytes 0 L).length = n := by rw [hlength]; rfl
    refine ⟨hcount, fun k hk => ⟨?_, fun b hb => ?_⟩⟩
    · have hmeta := chunkMeta_toNat (hlength.trans_le hlen) (hn ▸ hk)
      rw [ob_of_packetChunks hob (hn ▸ hk) (by decide), packetChunk_meta, hmeta, hn, hlength]
    · rw [ob_of_packetChunks hob (hn ▸ hk) (by omega), packetChunk_data _ hb, State.ibytes_getD_zero]

end Sys2Proof.Machine
end

section
/-! # The packet reassembler (48_stream_packet_ip.md R291, R294 to R296; O53) -/

namespace Sys2Proof.Machine

/-! ## PBUF -/

@[simp] theorem PacketReassembler.bytes_length (p : PacketReassembler) (i j : Nat) : (p.bytes i j).length = j - i := by
  simp [PacketReassembler.bytes]

/-- PBUF after a chunk was stored. -/
theorem PacketReassembler.store_byte (p : PacketReassembler) {B : Bytes} (hB : 25 ≤ B.length) (c k : Nat) :
    (p.store B c).byte k = if 25 * c ≤ k ∧ k < 25 * c + 25 then B.getD (k - 25 * c) 0 else p.byte k := by
  have hlen : (slice B 0 25).length = 25 := by rw [slice_length]; omega
  rw [PacketReassembler.byte, PacketReassembler.store_pbuf, PacketReassembler.store_epoch, Memory.find_writeBytes, hlen]
  split
  next h =>
    rw [slice_getElem?, if_pos (by omega), Nat.zero_add, List.getElem?_eq_getElem (by omega),
      List.getD_eq_getElem _ _ (by omega)]
    rfl
  next => rfl

/-- PKT_STAT of a reassembler that holds nothing. -/
theorem PacketReassembler.stat_of_idle {p : PacketReassembler} (hactive : p.active = false) (hexp : p.exp = 0) :
    p.stat = 0 := by
  rw [PacketReassembler.stat, hactive, hexp]
  rfl

/-! ## `pkt_accept` of the chunk in IB[0..26) (R291) -/

/-- The counter, or the byte count, of the chunk in IBUF. -/
def State.chunkNumber (s : State) : Nat := (s.ib 25).toNat / 4 % 32

section Chunk

variable (s : State)

theorem State.chunkEof_eq : chunkEof (s.ibytes 0 26) = decide (128 ≤ (s.ib 25).toNat) := by
  have h := msb_toNat (s.ib 25)
  have hlt := (s.ib 25).isLt
  rw [chunkEof, State.ibytes_getD s 0 26 25 (by decide), Nat.zero_add]
  cases hbit : (s.ib 25).getLsbD 7 <;> rw [hbit] at h
  · exact (decide_eq_false (by rw [Bool.toNat_false] at h; omega)).symm
  · exact (decide_eq_true (by rw [Bool.toNat_true] at h; omega)).symm

theorem State.chunkNumberer_toNat : (chunkCounter (s.ibytes 0 26)).toNat = s.chunkNumber := by
  rw [chunkCounter, State.ibytes_getD s 0 26 25 (by decide), Nat.zero_add, BitVec.extractLsb'_toNat,
    Nat.shiftRight_eq_div_pow]
  rfl

theorem State.packetAccept_of_middle (p : PacketReassembler) (h : (s.ib 25).toNat < 128) :
    packetAccept p (s.ibytes 0 26) = acceptMiddleChunk p (s.ibytes 0 26) s.chunkNumber := by
  rw [packetAccept, s.chunkEof_eq, if_neg (by simpa using h), s.chunkNumberer_toNat]

theorem State.packetAccept_of_last (p : PacketReassembler) (h : 128 ≤ (s.ib 25).toNat) :
    packetAccept p (s.ibytes 0 26) = acceptLastChunk p (s.ibytes 0 26) s.chunkNumber := by
  rw [packetAccept, s.chunkEof_eq, if_pos (by simpa using h), s.chunkNumberer_toNat]

end Chunk

/-! ## PKT_ACCEPT (R295) -/

section Accept

variable {s : State} {p : PacketReassembler}

theorem pktAccept_gives_error {e : Err} (h : packetAccept s.pkt (s.ibytes 0 26) = (p, .error e)) :
    Gives .pktAccept s (some e) [] 0 fun t => (t.lich = s.lich ∧ t.text = s.text) ∧ t.pkt = p := by
  have hrun : commandRun .pktAccept s = (s.setPkt p).raise e := by
    show pktAcceptRun s = _
    simp only [pktAcceptRun, h]
  exact .of_writes hrun rfl WritesOnly.start.setPkt (by decide) ⟨⟨rfl, rfl⟩, rfl⟩

/-- An action other than completion is reported in RES0, the counter of the next chunk in RES3. -/
theorem pktAccept_gives {a : PacketAction} {action : Nat} (h : packetAccept s.pkt (s.ibytes 0 26) = (p, .ok a))
    (ha : ∀ u : State, u.writePacketAction a = u.setResNat 0 action) (hcode : action < 2 ^ 32) :
    Gives .pktAccept s none [0, 3] 0 fun t =>
      (t.lich = s.lich ∧ t.text = s.text) ∧ ResIs t 0 action ∧ ResIs t 3 p.exp.toNat ∧ t.pkt = p := by
  have hrun : commandRun .pktAccept s = (((s.setPkt p).setResNat 0 action).setRes 3 (p.exp.setWidth 32)).ok := by
    show pktAcceptRun s = _
    simp only [pktAcceptRun, h, ha]
  exact .of_writes hrun rfl WritesOnly.start.setPkt.setResNat.setRes (by decide)
    ⟨⟨rfl, rfl⟩, .of_ofNat hcode (by simp), .of_setWidth (by decide) (by simp), rfl⟩

/-- A completed packet goes to OBUF, its protocol id and payload length to RES1 and RES2. -/
theorem pktAccept_gives_complete {Q : Bytes} (h : packetAccept s.pkt (s.ibytes 0 26) = (p, .ok (.complete Q)))
    (hQ : Q.length < 2 ^ 32) :
    Gives .pktAccept s none [0, 1, 2, 3] Q.length fun t =>
      (t.lich = s.lich ∧ t.text = s.text) ∧ t.pkt = p ∧ ObHolds t 0 Q ∧ ResIs t 0 2 ∧ ResIs t 1 (Q.getD 0 0).toNat
      ∧ ResIs t 2 (Q.length - 3) ∧ ResIs t 3 p.exp.toNat := by
  have hrun : commandRun .pktAccept s
      = ((((((s.setPkt p).obWrite 0 Q).setResNat 0 2).setRes 1 ((Q.getD 0 0).setWidth 32)).setResNat 2
          (Q.length - 3)).setRes 3 (p.exp.setWidth 32)).ok := by
    show pktAcceptRun s = _
    simp only [pktAcceptRun, h, State.writePacketAction]
  have hframe := commandRun_framed .pktAccept s
  rw [hrun] at hframe
  exact .of_writes hrun rfl (WritesOnly.start.setPkt.obWrite (by simp)).setResNat.setRes.setResNat.setRes (by decide)
    ⟨⟨hframe.lich (by decide), hframe.text (by decide)⟩, by simp, by simp, .of_ofNat (by decide) (by simp),
      .of_setWidth (by decide) (by simp), .of_ofNat (by omega) (by simp), .of_setWidth (by decide) (by simp)⟩

/-- What PKT_ACCEPT does where `pkt_accept` stores the chunk in `p`, which is the reassembler or the dropped one. -/
theorem pktAccept_stores {a : PacketAction} {action : Nat}
    (h : packetAccept s.pkt (s.ibytes 0 26) = (p.store (s.ibytes 0 26) s.chunkNumber, .ok a))
    (ha : ∀ u : State, u.writePacketAction a = u.setResNat 0 action) (hcode : action < 2 ^ 32)
    (hbyte : ∀ k, p.byte k = s.pkt.byte k) :
    Gives .pktAccept s none [0, 3] 0 fun t =>
      (t.lich = s.lich ∧ t.text = s.text) ∧ ResIs t 0 action ∧ ResIs t 3 (s.chunkNumber + 1) ∧ t.pkt.active = true
      ∧ t.pkt.exp.toNat = s.chunkNumber + 1
      ∧ ∀ k, t.pkt.byte k = if 25 * s.chunkNumber ≤ k ∧ k < 25 * s.chunkNumber + 25 then s.ib (k - 25 * s.chunkNumber)
          else s.pkt.byte k := by
  have hexp : (p.store (s.ibytes 0 26) s.chunkNumber).exp.toNat = s.chunkNumber + 1 := by
    rw [PacketReassembler.store_exp, BitVec.toNat_ofNat, State.chunkNumber]
    omega
  refine (pktAccept_gives h ha hcode).imp ?_
  rintro t ⟨hothers, haction, hnext, hpkt⟩
  rw [hexp] at hnext
  rw [hpkt]
  refine ⟨hothers, haction, hnext, rfl, hexp, fun k => ?_⟩
  rw [p.store_byte (by rw [State.ibytes_length]; decide), hbyte]
  refine ite_congr rfl (fun hk => ?_) fun _ => rfl
  rw [State.ibytes_getD _ _ _ _ (by omega), Nat.zero_add]

end Accept

/-! ## PKT_RESET and PKT_FLUSH (R294, R296) -/

theorem pktReset_gives (s : State) :
    Gives .pktReset s none [] 0 fun t =>
      t.lich = s.lich ∧ t.text = s.text ∧ t.pkt = PacketReassembler.idle (s.pkt.epoch + 1) :=
  .of_writes (r := pktResetRun s) rfl rfl WritesOnly.start.setPkt (by decide) ⟨rfl, rfl, rfl⟩

theorem pktFlush_gives (s : State) :
    Gives .pktFlush s (if s.pkt.active then some (.reassembly .missingEnd) else none) [] 0 fun t =>
      t.lich = s.lich ∧ t.text = s.text ∧ t.pkt = if s.pkt.active then s.pkt.drop else s.pkt := by
  by_cases hactive : s.pkt.active = true
  · have hrun : commandRun .pktFlush s = (s.setPkt s.pkt.drop).raise (.reassembly .missingEnd) := if_pos hactive
    rw [if_pos hactive, if_pos hactive]
    exact .of_writes hrun rfl WritesOnly.start.setPkt (by decide) ⟨rfl, rfl, rfl⟩
  · have hrun : commandRun .pktFlush s = s.ok := if_neg hactive
    rw [if_neg hactive, if_neg hactive]
    exact .of_writes hrun rfl WritesOnly.start (by decide) ⟨rfl, rfl, rfl⟩

theorem packetCrcOk_iff {Q : Bytes} : packetCrcOk Q = true
    ↔ (crc16 (slice Q 0 (Q.length - 2))).toNat = beNat (slice Q (Q.length - 2) Q.length) := beq_iff_eq

/-- Settles O53: each branch of `pkt_accept`, completed. -/
theorem packetReassemblerCommands : Obligations.PacketReassemblerCommands := by
  refine ⟨fun s => (pktReset_gives s).imp ?reset, fun s => (pktFlush_gives s).imp ?flush, fun s => ?accept⟩
  case reset =>
    rintro t ⟨hlich, htext, hpkt⟩
    rw [hpkt]
    exact ⟨hlich, htext, rfl, rfl, PacketReassembler.stat_of_idle rfl rfl⟩
  case flush =>
    rintro t ⟨hlich, htext, hpkt⟩
    refine ⟨hlich, htext, hpkt, fun h => ?_⟩
    rw [hpkt]
    split
    next => exact PacketReassembler.stat_of_idle rfl rfl
    next hactive => exact PacketReassembler.stat_of_idle (eq_false_of_ne_true hactive) (h.resolve_left hactive)
  case accept =>
    intro p c data others fails stores Q
    have hdata : slice (s.ibytes 0 26) 0 25 = data := s.slice_ibytes_zero (by decide)
    have hc : s.chunkNumber = c := rfl
    by_cases hmiddle : (s.ib 25).toNat < 128
    · rw [if_pos hmiddle]
      have haccept := s.packetAccept_of_middle p hmiddle
      rw [acceptMiddleChunk, hdata, hc] at haccept
      by_cases hagain : p.active = true ∧ c + 1 = p.exp.toNat
      · rw [if_pos hagain] at haccept ⊢
        by_cases hsame : data = p.bytes (25 * c) (25 * c + 25)
        · rw [if_pos hsame] at haccept ⊢
          refine (pktAccept_gives haccept (fun _ => rfl) (by decide)).imp ?_
          rintro t ⟨⟨hlich, htext⟩, h0, h3, hpkt⟩
          exact ⟨⟨hlich, hpkt, htext⟩, h0, h3⟩
        · rw [if_neg hsame] at haccept ⊢
          exact pktAccept_gives_error haccept
      rw [if_neg hagain] at haccept ⊢
      by_cases hnext : c = p.exp.toNat
      · rw [if_pos hnext] at haccept ⊢
        exact pktAccept_stores haccept (fun _ => rfl) (by decide) fun _ => rfl
      rw [if_neg hnext] at haccept ⊢
      by_cases hfirst : c = 0
      · rw [if_pos hfirst] at haccept ⊢
        have hstart : packetAccept p (s.ibytes 0 26) = (p.drop.store (s.ibytes 0 26) c, .ok .restarted) := by
          rw [haccept, hfirst]
        exact pktAccept_stores hstart (fun _ => rfl) (by decide) fun _ => rfl
      rw [if_neg hfirst] at haccept ⊢
      by_cases hgap : p.exp.toNat < c
      · rw [if_pos hgap] at haccept ⊢
        exact pktAccept_gives_error haccept
      · rw [if_neg hgap] at haccept ⊢
        exact pktAccept_gives_error haccept
    · rw [if_neg hmiddle]
      have haccept := s.packetAccept_of_last p (not_lt.1 hmiddle)
      rw [acceptLastChunk, hc] at haccept
      by_cases hcount : c = 0 ∨ 25 < c
      · rw [if_pos hcount] at haccept ⊢
        exact pktAccept_gives_error haccept
      have hQ : p.bytes 0 (25 * p.exp.toNat) ++ slice (s.ibytes 0 26) 0 c = Q :=
        congrArg _ (s.slice_ibytes_zero (by omega))
      have hQlen : Q.length = 25 * p.exp.toNat + c := by
        simp only [Q, List.length_append, PacketReassembler.bytes_length, State.ibytes_length, Nat.sub_zero]
      rw [if_neg hcount] at haccept ⊢
      simp only [hQ] at haccept
      by_cases hshort : Q.length < 3
      · rw [if_pos hshort] at haccept ⊢
        exact pktAccept_gives_error haccept
      rw [if_neg hshort] at haccept ⊢
      by_cases hcrc : (crc16 (slice Q 0 (Q.length - 2))).toNat = beNat (slice Q (Q.length - 2) Q.length)
      · rw [if_pos (packetCrcOk_iff.2 hcrc)] at haccept
        rw [if_neg (not_not.2 hcrc)]
        exact pktAccept_gives_complete haccept (by have := p.exp.isLt; omega)
      · rw [if_neg (mt packetCrcOk_iff.1 hcrc)] at haccept
        rw [if_pos hcrc]
        exact pktAccept_gives_error haccept

end Sys2Proof.Machine
end

section
/-! # A packet cut into chunks and reassembled (48_stream_packet_ip.md R289 to R295; O54)

Before chunk j the reassembler expects it and holds the first 25j bytes of the packet. -/

namespace Sys2Proof.Machine

/-! ## The chunks in IBUF -/

/-- IBUF holds chunk j of the packet Q. -/
def ChunkInIbuf (s : State) (Q : Bytes) (j : Nat) : Prop :=
  ∀ b < 26, s.ib b = (packetChunk Q (chunkCount Q.length) j).getD b 0

section Chunk

variable {s : State} {Q : Bytes} {j : Nat} (hB : ChunkInIbuf s Q j)
include hB

theorem ChunkInIbuf.data {b : Nat} (hb : b < 25) : s.ib b = Q.getD (25 * j + b) 0 := by
  rw [hB b (by omega), packetChunk_data _ hb]

theorem ChunkInIbuf.metaByte (hQ : Q.length ≤ 825) (hj : j < chunkCount Q.length) :
    (s.ib 25).toNat
      = if j + 1 < chunkCount Q.length then 4 * j else 128 + 4 * (Q.length - 25 * (chunkCount Q.length - 1)) := by
  rw [hB 25 (by decide), packetChunk_meta, chunkMeta_toNat hQ hj]

end Chunk

/-! ## The reassembler between two chunks -/

/-- The reassembler before chunk j of the packet Q. -/
structure Awaits (p : PacketReassembler) (Q : Bytes) (j : Nat) : Prop where
  exp : p.exp.toNat = j
  bytes : ∀ k < 25 * j, p.byte k = Q.getD k 0

section Step

variable {s t : State} {Q : Bytes} {j : Nat} (hQ : Q.length ≤ 825) (hs : Awaits s.pkt Q j) (hB : ChunkInIbuf s Q j)
  (ht : exec .pktAccept s = .next t)
include hQ hs hB ht

/-- A chunk before the last is stored. -/
theorem pktAccept_chunk (hj : j + 1 < chunkCount Q.length) :
    t.error = none ∧ ResIs t 0 0 ∧ Awaits t.pkt Q (j + 1) := by
  have hmeta := hB.metaByte hQ (by omega)
  rw [if_pos hj] at hmeta
  rw [chunkCount] at hj
  have hnumber : s.chunkNumber = j := by rw [State.chunkNumber, hmeta]; omega
  have haccept := s.packetAccept_of_middle s.pkt (by omega)
  rw [acceptMiddleChunk, hs.exp, hnumber, if_neg (by omega), if_pos rfl, ← hnumber] at haccept
  have hstores := pktAccept_stores haccept (fun _ => rfl) (by decide) fun _ => rfl
  obtain ⟨herror, -, h0, -, -, hexp, hbyte⟩ := hstores.of_next ht
  rw [hnumber] at hexp hbyte
  refine ⟨herror, h0, hexp, fun k hk => ?_⟩
  rw [hbyte]
  split
  next h => rw [hB.data (by omega)]; congr 1; omega
  next => exact hs.bytes k (by omega)

/-- The last chunk completes the packet. -/
theorem pktAccept_lastChunk (hj : j + 1 = chunkCount Q.length) (hlen : 3 ≤ Q.length) (hcrc : packetCrcOk Q = true) :
    t.error = none ∧ ResIs t 0 2 ∧ ResIs t 1 (Q.getD 0 0).toNat ∧ ResIs t 2 (Q.length - 3) ∧ ObHolds t 0 Q := by
  have hmeta := hB.metaByte hQ (by omega)
  rw [if_neg (by omega), ← hj, Nat.add_sub_cancel] at hmeta
  rw [chunkCount] at hj
  have hnumber : s.chunkNumber = Q.length - 25 * j := by rw [State.chunkNumber, hmeta]; omega
  have hwhole : s.pkt.bytes 0 (25 * j) ++ s.ibytes 0 (Q.length - 25 * j) = Q := by
    refine List.ext_getElem (by simp; omega) fun k hk hk' => ?_
    rw [← List.getD_eq_getElem _ 0 hk, ← List.getD_eq_getElem _ 0 hk']
    by_cases h : k < 25 * j
    · rw [List.getD_append _ _ _ _ (by simpa), ← hs.bytes k h, PacketReassembler.bytes,
        List.getD_eq_getElem _ _ (by simpa)]
      simp
    · rw [List.getD_append_right _ _ _ _ (by simpa using h), PacketReassembler.bytes_length,
        State.ibytes_getD _ _ _ _ (by omega), hB.data (by omega)]
      congr 1
      omega
  have haccept := s.packetAccept_of_last s.pkt (by omega)
  rw [acceptLastChunk, hnumber, if_neg (by omega), hs.exp, s.slice_ibytes_zero (by omega)] at haccept
  simp only [hwhole] at haccept
  rw [if_neg (not_lt.2 hlen), if_pos hcrc] at haccept
  obtain ⟨herror, -, -, hob, h0, h1, h2, -⟩ := (pktAccept_gives_complete haccept (by omega)).of_next ht
  exact ⟨herror, h0, h1, h2, hob⟩

end Step

/-! ## The packet of PKT_BUILD -/

theorem State.packet_crcOk (s : State) (n : Nat) : packetCrcOk (s.packet n) = true := by
  have hbody : (s.packet n).length - 2 = (s.packetBody n).length := by simp
  rw [packetCrcOk_iff, hbody, State.packet_length, State.packet, slice_append_left _ _ le_rfl,
    show n + 3 = (s.packetBody n).length + 2 by simp, slice_own_crc, beNat_beBytes_of_lt (crc16_toNat_lt _), slice_self]

/-- Settles O54, by induction over the chunks. -/
theorem packetRoundTrip : Obligations.PacketRoundTrip := by
  intro s t u v len len' before after hlen harg hbuild hlen' hcopy hcut n hidle hexp hchunks hruns hchain
  obtain ⟨-, hpacket, -⟩ := (pktBuild_yields s hlen harg).of_next hbuild
  have hQ : u.ibytes 0 len'.toNat = s.packet len.toNat :=
    State.ibytes_of_copy hpacket ((s.packet_length _).trans hlen'.symm) hcopy
  obtain ⟨-, hcutted, -⟩ := (pktChunk_yields u (by omega) (by omega)).of_next hcut
  rw [hQ] at hcutted
  have hlength : (s.packet len.toNat).length = len'.toNat := (s.packet_length _).trans hlen'.symm
  have hle : (s.packet len.toNat).length ≤ 825 := by omega
  have hn : chunkCount (s.packet len.toNat).length = n := by rw [hlength]; rfl
  have hin : ∀ j < n, ChunkInIbuf (before j) (s.packet len.toNat) j := fun j hj b hb => by
    rw [hchunks j hj b hb, ob_of_packetChunks hcutted (hn ▸ hj) hb]
  have hawaits : ∀ j < n, Awaits (before j).pkt (s.packet len.toNat) j := by
    intro j hj
    induction j with
    | zero => exact ⟨by rw [hexp]; rfl, nofun⟩
    | succ j ih =>
      have hj' : j < n := by omega
      rw [hchain j hj]
      exact (pktAccept_chunk hle (ih hj') (hin j hj') (hruns j hj') (hn ▸ hj)).2.2
  refine ⟨fun j hj => ?stored, ?complete⟩
  case stored =>
    have hj' : j < n := by omega
    obtain ⟨herror, h0, -⟩ := pktAccept_chunk hle (hawaits j hj') (hin j hj') (hruns j hj') (hn ▸ hj)
    exact ⟨herror, h0⟩
  case complete =>
    have hpos : n - 1 < n := by omega
    obtain ⟨herror, h0, h1, h2, hob⟩ := pktAccept_lastChunk hle (hawaits _ hpos) (hin _ hpos) (hruns _ hpos)
      (by omega) (by omega) (s.packet_crcOk _)
    obtain ⟨hbody, -⟩ := hob.of_append
    refine ⟨herror, h0, ?_, ?_, fun k hk => ?_⟩
    · have hfirst : ((s.packet len.toNat).getD 0 0).toNat = (s.argReg 0).toNat := by
        show (BitVec.ofNat 8 (s.argReg 0).toNat).toNat = _
        rw [BitVec.toNat_ofNat, Nat.mod_eq_of_lt harg]
      rwa [hfirst] at h1
    · rwa [State.packet_length, Nat.add_sub_cancel] at h2
    · rw [Nat.add_comm, hbody.ob_getD (by simpa using hk), State.packetBody, List.getD_cons_succ,
        State.ibytes_getD _ _ _ _ (by omega), Nat.zero_add]

end Sys2Proof.Machine
end

section
/-! # IP frames (48_stream_packet_ip.md R297 to R299; O55) -/

namespace Sys2Proof.Machine

/-! ## An LSF with its own CRC (47_lsf_meta.md R250, R251) -/

/-- What the version enables say of a TYPE value (43_type.md R162, 47_lsf_meta.md R251). -/
def versionVerdict (v2 v3 : Bool) (ty : Nat) : Option Err :=
  if versionCode ty = 0 then (if v2 then none else some (.unsupportedVersion .v2))
  else (if v3 then none else some (.unsupportedVersion .v3))

/-- An LSF with its own CRC passes the CRC check, so the version decides. -/
theorem lsfVerdict_own_crc (v2 v3 : Bool) {l : Bytes} (hl : l.length = 28) :
    lsfVerdict v2 v3 (l ++ beBytes 2 (crc16 l).toNat) = versionVerdict v2 v3 (beNat (slice l 12 14)) := by
  have hcovered : slice (l ++ beBytes 2 (crc16 l).toNat) 0 28 = l := by
    rw [slice_append_left _ _ hl.ge, ← hl, slice_self]
  have htype : slice (l ++ beBytes 2 (crc16 l).toNat) 12 14 = slice l 12 14 := slice_append_left _ _ (by omega)
  have htrailing : beNat (slice (l ++ beBytes 2 (crc16 l).toNat) 28 30) = (crc16 l).toNat := by
    have h := slice_own_crc l
    rw [hl] at h
    rw [h, beNat_beBytes_of_lt (crc16_toNat_lt _)]
  have hnibble : beNat (slice l 12 14) / 4096 < 16 := by
    have h : beNat (slice l 12 14) < 256 ^ 2 :=
      (beNat_lt _).trans_le (Nat.pow_le_pow_right (by decide) (by rw [slice_length]; omega))
    omega
  have hversion : versionCode (beNat (slice l 12 14)) = 0 ↔ beNat (slice l 12 14) / 4096 = 0 := by
    rw [versionCode, Nat.mod_eq_of_lt hnibble]
    split <;> simp [*]
  simp only [lsfVerdict, hcovered, htype, htrailing, ne_eq, not_true_eq_false, if_false, versionVerdict, hversion]

/-- With its version enabled an LSF passes. -/
theorem versionVerdict_eq_none {v2 v3 : Bool} {ty : Nat} (h2 : versionCode ty = 0 → v2 = true)
    (h3 : versionCode ty = 1 → v3 = true) : versionVerdict v2 v3 ty = none := by
  rw [versionVerdict]
  split
  next h => rw [if_pos (h2 h)]
  next h => rw [if_pos (h3 (if_neg fun hzero => h (if_pos hzero)))]

/-! ## IP_BUILD (R298) -/

/-- The bytes of an IP frame that its CRC covers. -/
def State.ipBody (s : State) : Bytes := beBytes 2 (s.argReg 0).toNat ++ s.ibytes 0 46

@[simp] theorem State.ipBody_length (s : State) : s.ipBody.length = 48 := by simp [State.ipBody]

theorem ipBuild_yields (s : State) (h : (s.argReg 0).toNat < 2 ^ 16) :
    Yields .ipBuild s none [0] 54 fun t =>
      ObHolds t 0 (ipMagic ++ s.ipBody ++ beBytes 2 (crc16 s.ipBody).toNat) ∧ ResIs t 0 (crc16 s.ipBody).toNat := by
  have hhead : ipHead (s.argField 0 16) (s.ibytes 0 28) (s.ibytes 28 46) = ipMagic ++ s.ipBody := by
    rw [ipHead, State.argField_toNat h, List.append_assoc, s.ibytes_append 0 28 46 (by decide) (by decide),
      List.append_assoc]
    rfl
  have hcovered : slice (ipMagic ++ s.ipBody) 4 52 = s.ipBody := by
    have hright := slice_append_right ipMagic s.ipBody
    rwa [State.ipBody_length] at hright
  have hrun : commandRun .ipBuild s
      = (((s.obWrite 0 (ipMagic ++ s.ipBody)).obWrite 52 (beBytes 2 (crc16 s.ipBody).toNat)).setRes 0
          ((crc16 s.ipBody).setWidth 32)).ok := by
    show ipBuildRun s = _
    rw [ipBuildRun, if_neg (State.not_argHigh_of_lt h)]
    simp only [hhead, hcovered]
  have hlen : (ipMagic ++ s.ipBody).length = 52 := by simp [ipMagic]
  refine .of_writes hrun rfl ((WritesOnly.start.obWrite (by omega)).obWrite (by simp)).setRes (by decide) (by decide)
    ⟨?_, .of_setWidth (by decide) (by simp)⟩
  simp only [State.ok_state, obHolds_complete, obHolds_setRes]
  exact ((ObHolds.write s 0 _).keep (.inl (by omega))).append (by rw [hlen]; exact .write _ 52 _)

/-! ## IP_PARSE (R299) -/

theorem ipParse_yields (s : State) (h : s.ibytes 0 4 = ipMagic) :
    Yields .ipParse s
      (if (crc16 (s.ibytes 4 52)).toNat ≠ beNat (s.ibytes 52 54) then some .crcMismatch
        else versionVerdict s.v2En s.v3En (beNat (s.ibytes 18 20))) [0, 1, 2, 3, 4, 5] 48 fun t =>
      ObHolds t 0 (s.ibytes 6 34) ∧ ObHolds t 28 (beBytes 2 (crc16 (s.ibytes 6 34)).toNat)
      ∧ ObHolds t 30 (s.ibytes 34 52) ∧ ResIs t 0 (beNat (s.ibytes 4 6)) ∧ ResIs t 1 (beNat (s.ibytes 18 20))
      ∧ ResIs t 2 (versionCode (beNat (s.ibytes 18 20))) ∧ ResIs t 3 (crc16 (s.ibytes 6 34)).toNat
      ∧ ResIs t 4 (beNat (s.ibytes 34 36)) ∧ ResIs t 5 (crc16 (s.ibytes 4 52)).toNat := by
  have hpart : ∀ a, ∀ b ≤ 54, slice (s.ibytes 0 54) a b = s.ibytes a b := fun a b hb => s.slice_ibytes_zero hb
  have htype : slice (s.ibytes 6 34) 12 14 = s.ibytes 18 20 := State.slice_ibytes s 6 34 12 14 (by decide)
  have hty : (lsfType (s.ibytes 6 34)).toNat = beNat (s.ibytes 18 20) := by rw [lsfType_toNat, htype]
  have herror : s.ipCheck (s.ibytes 0 54) (s.ibytes 6 34 ++ beBytes 2 (crc16 (s.ibytes 6 34)).toNat)
      = if (crc16 (s.ibytes 4 52)).toNat ≠ beNat (s.ibytes 52 54) then some .crcMismatch
        else versionVerdict s.v2En s.v3En (beNat (s.ibytes 18 20)) := by
    rw [State.ipCheck, hpart 4 52 (by decide), hpart 52 54 (by decide), State.lsfCheck_eq,
      lsfVerdict_own_crc _ _ (State.ibytes_length ..), htype]
  have hrun : commandRun .ipParse s
      = (((((((((s.obWrite 0 (s.ibytes 6 34)).obWrite 28 (beBytes 2 (crc16 (s.ibytes 6 34)).toNat)).obWrite 30
          (s.ibytes 34 52)).setResNat 0 (beNat (s.ibytes 4 6))).setRes 1
          ((lsfType (s.ibytes 6 34)).setWidth 32)).setResNat 2 (detect (lsfType (s.ibytes 6 34))).code).setRes 3
          ((crc16 (s.ibytes 6 34)).setWidth 32)).setResNat 4 (beNat (s.ibytes 34 36))).setRes 5
          ((crc16 (s.ibytes 4 52)).setWidth 32)).raiseIf
          (s.ipCheck (s.ibytes 0 54) (s.ibytes 6 34 ++ beBytes 2 (crc16 (s.ibytes 6 34)).toNat)) := by
    show ipParseRun s = _
    rw [ipParseRun, if_neg (by rw [hpart 0 4 (by decide), h]; exact not_not.2 rfl)]
    simp only [hpart 6 34 (by decide), hpart 34 52 (by decide), hpart 4 6 (by decide), hpart 34 36 (by decide),
      hpart 4 52 (by decide)]
  have hsid : beNat (s.ibytes 4 6) < 2 ^ 32 := (s.beNat_ibytes_lt (n := 2) (by decide)).trans (by decide)
  have hfn : beNat (s.ibytes 34 36) < 2 ^ 32 := (s.beNat_ibytes_lt (n := 2) (by decide)).trans (by decide)
  rw [herror] at hrun
  rw [← hty, ← detect_code]
  refine .of_writes hrun (by rw [hty, State.raiseIf_error]) (((WritesOnly.start.obWrite (by simp)).obWrite (by simp)).obWrite
    (by simp)).setResNat.setRes.setResNat.setRes.setResNat.setRes (by decide) (by decide)
    ⟨?lsf, ?crc, by simp, .of_ofNat hsid (by simp), .of_setWidth (by decide) (by simp),
      .of_ofNat (detect_code _ ▸ versionCode_lt _) (by simp), .of_setWidth (by decide) (by simp),
      .of_ofNat hfn (by simp), .of_setWidth (by decide) (by simp)⟩
  all_goals simp only [State.raiseIf_state, obHolds_complete, obHolds_setRes, obHolds_setResNat]
  case lsf => exact ((ObHolds.write s 0 _).keep (.inl (by simp))).keep (.inl (by simp))
  case crc => exact (ObHolds.write _ 28 _).keep (.inl (by simp))

/-! ## The round trip -/

/-- A byte sequence in OBUF, where a host has copied OBUF to IBUF. -/
theorem State.ibytes_of_copy_at {t s' : State} {B : Bytes} {i j n : Nat} (hob : ObHolds t i B) (hj : i + B.length = j)
    (hn : j ≤ n) (hcopy : ∀ k < n, s'.ib k = t.ob k) : s'.ibytes i j = B := by
  subst hj
  refine List.ext_getElem (by simp) fun k hk hk' => ?_
  rw [State.ibytes_getElem, hcopy _ (by omega), hob k hk']

/-- Settles O55: the two runs, and what IP_BUILD wrote read as IP_PARSE reads it. -/
theorem ipBuildAndParse : Obligations.IpBuildAndParse := by
  refine ⟨fun s => ⟨ipBuild_yields s, fun h => .of_commandRun (if_pos ((s.argHigh_ne_zero_iff 0 16).2 h)),
    fun h => .of_commandRun (if_pos ?magic), ipParse_yields s⟩, fun s t s' harg ht hcopy h2 h3 => ?roundTrip⟩
  case magic => rwa [s.slice_ibytes_zero (by decide)]
  case roundTrip =>
    obtain ⟨-, hframe, -⟩ := (ipBuild_yields s harg).of_next ht
    obtain ⟨hhead, hcrc⟩ := hframe.of_append
    obtain ⟨hmagic, hbody⟩ := hhead.of_append
    obtain ⟨hsid, hdata⟩ := hbody.of_append
    have hcrc' : s'.ibytes 52 54 = _ := State.ibytes_of_copy_at hcrc (by simp) le_rfl hcopy
    have hmagic' : s'.ibytes 0 4 = ipMagic := State.ibytes_of_copy_at hmagic rfl (by decide) hcopy
    have hbody' : s'.ibytes 4 52 = _ := State.ibytes_of_copy_at hbody (by simp) (by decide) hcopy
    have hsid' : s'.ibytes 4 6 = _ := State.ibytes_of_copy_at hsid (by simp) (by decide) hcopy
    have hdata' : s'.ibytes 6 52 = _ := State.ibytes_of_copy_at hdata (by simp) (by decide) hcopy
    have hpart : ∀ a b, b ≤ 46 → s'.ibytes (6 + a) (6 + b) = s.ibytes a b := fun a b hb => by
      have h := congrArg (slice · a b) hdata'
      rwa [State.slice_ibytes _ _ _ _ _ (by omega), s.slice_ibytes_zero hb] at h
    have hparse := ipParse_yields s' hmagic'
    have hsidValue : beNat (beBytes 2 (s.argReg 0).toNat) = (s.argReg 0).toNat := beNat_beBytes_of_lt harg
    have hcrcValue : beNat (beBytes 2 (crc16 s.ipBody).toNat) = (crc16 s.ipBody).toNat :=
      beNat_beBytes_of_lt (crc16_toNat_lt _)
    have htype : s'.ibytes 18 20 = s.ibytes 12 14 := hpart 12 14 (by decide)
    have hlsf : s'.ibytes 6 34 = s.ibytes 0 28 := hpart 0 28 (by decide)
    have hpayload : s'.ibytes 34 52 = s.ibytes 28 46 := hpart 28 46 (by decide)
    have hfn : s'.ibytes 34 36 = s.ibytes 28 30 := hpart 28 30 (by decide)
    rw [hbody', hcrc', hcrcValue, if_neg (not_not.2 rfl), htype, versionVerdict_eq_none h2 h3, hlsf, hpayload, hsid',
      hsidValue, hfn] at hparse
    refine hparse.imp ?_
    rintro t' ⟨hob, -, hob', hres, -, -, -, hres', -⟩
    exact ⟨hres, hob, hob', hres'⟩

end Sys2Proof.Machine
end

section
/-! # The transmitters (49_pipeline_bert.md R321, R323, R325, R327; O56) -/

namespace Sys2Proof.Machine

/-- A frame in OBUF carries its sync word and its coded bits (R321). -/
theorem frameCarries_of_txFrame {t : State} {sync : BitVec 16} {c : Bits} (hob : ObHolds t 0 (txFrame hw sync c)) :
    FrameCarries t sync.toNat c := by
  refine ⟨?_, fun i hi => ?_⟩
  · rw [txFrame, pack_bits_append] at hob
    exact hob.of_append.1
  · rw [obBit_of_txFrame hob hi, randBits_getD]
    rfl

theorem lsfTx_yields (s : State) :
    Yields .lsfTx s none [0] 48 fun t =>
      ObHolds t 0 (txFrame hw syncLsf (puncture hw.punctP1 (conv (bits s.lsfWithCrc))))
      ∧ ResIs t 0 (crc16 (s.ibytes 0 28)).toNat := by
  have hrun : commandRun .lsfTx s
      = ((s.obWrite 0 (txFrame hw syncLsf (puncture hw.punctP1 (conv (bits s.lsfWithCrc))))).setRes 0
          ((crc16 (s.ibytes 0 28)).setWidth 32)).ok := rfl
  exact .of_writes hrun rfl (WritesOnly.start.obWrite (by rw [txFrame_length])).setRes (by decide) (by decide)
    ⟨by simp, .of_setWidth (by decide) (by simp)⟩

/-- The first bits of a byte range of IBUF, read from IBUF. -/
theorem State.take_bits_ibytes (s : State) {n k : Nat} (hk : k ≤ 8 * n) :
    (bits (s.ibytes 0 n)).take k = (List.range k).map s.ibBit := by
  refine List.ext_getElem (by simp; omega) fun i hi hi' => ?_
  have hbit := s.bits_ibytes_getD n i (by simp at hi'; omega)
  rw [List.getD_eq_getElem _ _ (by simp at hi' ⊢; omega)] at hbit
  simp [hbit]

/-- Settles O56: the lengths by the frame sizes of the masks, the frames by what each command writes. -/
theorem transmitCommands : Obligations.TransmitCommands := by
  intro s
  obtain ⟨fillsLsf, fillsStream, fillsPacket, -⟩ := paramsOk_hw.frameSizes
  refine ⟨⟨fillsLsf _ (by simp), (lsfTx_yields s).imp fun t ⟨hob, hcrc⟩ => ⟨frameCarries_of_txFrame hob, hcrc⟩⟩,
    ⟨lichEncode_length .., ?streamLength, ?stream⟩, ⟨fillsPacket _ (by simp), ?packet⟩⟩
  case streamLength => rw [List.length_append, lichEncode_length, fillsStream _ (by simp)]
  case stream =>
    have hrun : commandRun .strTx s = (s.obWrite 0 (txFrame hw syncStream (lichEncode hw s.lichUnit
        ++ puncture hw.punctP2 (conv (bits (s.ibytes 6 24)))))).ok := rfl
    exact (Yields.of_obWrite hrun (txFrame_length ..)).imp fun t hob => frameCarries_of_txFrame hob
  case packet =>
    have hrun : commandRun .pktTx s = (s.obWrite 0 (txFrame hw syncPacket
        (puncture hw.punctP3 (conv ((bits (s.ibytes 0 26)).take 206))))).ok := rfl
    rw [s.take_bits_ibytes (by decide)] at hrun
    exact (Yields.of_obWrite hrun (txFrame_length ..)).imp fun t hob => frameCarries_of_txFrame hob

end Sys2Proof.Machine
end

section
/-! # The receivers over every soft frame (49_pipeline_bert.md R322, R324, R326, R328; O57, O58) -/

namespace Sys2Proof.Machine

/-! ## The front end (R322) -/

/-- The soft frame in IB[16..384) dewhitened and deinterleaved, position by position. -/
def State.softFrame (s : State) : Bytes :=
  (List.range 368).map fun i =>
    let j := (45 * i + 92 * i ^ 2) % 368
    if (randSeq.getD (j / 8) 0).getLsbD (7 - j % 8) then BitVec.ofNat 8 (255 - (s.ib (16 + j)).toNat) else s.ib (16 + j)

theorem mirrored_eq (v : Byte) : 255 - v = BitVec.ofNat 8 (255 - v.toNat) :=
  BitVec.eq_of_toNat_eq (by rw [mirrored_toNat, BitVec.toNat_ofNat, Nat.mod_eq_of_lt (by omega)])

theorem State.rxFront_eq (s : State) : rxFront hw (s.ibytes 0 384) = s.softFrame := by
  refine List.ext_getElem (by simp [rxFront, State.softFrame]) fun i hi hi' => ?_
  have hi368 : i < 368 := by simpa [State.softFrame] using hi'
  have hj := qpp_lt i
  have hsoft : (rxFront hw (s.ibytes 0 384)).getD i 0
      = if (randBits hw).getD (qpp i) false then 255 - s.ib (16 + qpp i) else s.ib (16 + qpp i) := by
    rw [rxFront, interleave_getD 0 _ i hi368, State.slice_ibytes s 0 384 16 384 (by decide),
      randomizeSoft_getD _ _ hj (by simp), State.ibytes_getD _ _ _ _ (by omega), Nat.zero_add]
  rw [List.getD_eq_getElem _ _ hi, mirrored_eq, randBits_getD] at hsoft
  rw [hsoft]
  simp only [State.softFrame, List.getElem_map, List.getElem_range]
  rfl

/-! ## PKT_RX (R328) -/

/-- The last byte of a packed chunk of 206 bits ends in two zero bits. -/
theorem pack_chunk_last {v : Bits} (hv : v.length = 206) : ((pack v).getD 25 0).toNat % 4 = 0 := by
  have low : ∀ b : Byte, b.getLsbD 1 = false → b.getLsbD 0 = false → b.toNat % 4 = 0 := by decide
  have past : ∀ i, 206 ≤ i → v.getD i false = false := fun i hi => List.getD_eq_default _ _ (hv.trans_le hi)
  refine low _ ((pack_bit v 206 (by omega)).trans (past _ le_rfl)) ((pack_bit v 207 (by omega)).trans (past _ ?_))
  decide

theorem chunkNumber_toNat (b : Byte) : (b.extractLsb' 2 5).toNat = b.toNat / 4 % 32 := by
  rw [BitVec.extractLsb'_toNat, Nat.shiftRight_eq_div_pow]

theorem pktRx_fields {s : State} {v : Bits} {m : Nat}
    (hr : viterbi hw.punctP3 206 (rxFront hw (s.ibytes 0 384)) = (v, m)) :
    Yields .pktRx s none [0, 1, 2] 26 fun t =>
      ObHolds t 0 (pack v) ∧ ResIs t 0 m ∧ ResIs t 1 (((pack v).getD 25 0).toNat / 128)
      ∧ ResIs t 2 (((pack v).getD 25 0).toNat / 4 % 32) := by
  obtain ⟨hv, hm⟩ := viterbi_result hr
  have hrun : commandRun .pktRx s
      = ((((s.obWrite 0 (pack v)).setResNat 0 m).setResNat 1 (((pack v).getD 25 0).toNat / 128)).setRes 2
          ((((pack v).getD 25 0).extractLsb' 2 5).setWidth 32)).ok := by
    show pktRxRun hw s = _
    simp only [pktRxRun, hr, msb_toNat]
  have hlast := ((pack v).getD 25 0).isLt
  rw [← chunkNumber_toNat]
  exact .of_writes hrun rfl (WritesOnly.start.obWrite (by rw [pack_length, hv])).setResNat.setResNat.setRes (by decide)
    (by decide) ⟨by simp, .of_ofNat (by omega) (by simp), .of_ofNat (by omega) (by simp),
      .of_setWidth (by decide) (by simp)⟩

/-- Settles O57: the receivers behind the front end, and the front end position by position. -/
theorem receiveLsfAndPacketCommands : Obligations.ReceiveLsfAndPacketCommands := by
  intro s rb X
  have hX : rxFront hw (s.ibytes 0 384) = X := s.rxFront_eq
  clear_value X
  have hlsf := viterbi_length hw.punctP1 240 X
  have hpkt := viterbi_length hw.punctP3 206 X
  have hlsfRun : viterbi hw.punctP1 240 (rxFront hw (s.ibytes 0 384))
      = ((viterbi hw.punctP1 240 X).1, (viterbi hw.punctP1 240 X).2) := by rw [hX]
  have hpktRun : viterbi hw.punctP3 206 (rxFront hw (s.ibytes 0 384))
      = ((viterbi hw.punctP3 206 X).1, (viterbi hw.punctP3 206 X).2) := by rw [hX]
  refine ⟨⟨?_, lsfRx_yields hlsfRun⟩, ⟨?_, (pktRx_fields hpktRun).imp ?_⟩⟩
  · show (pack (viterbi hw.punctP1 240 X).1).length = 30
    rw [pack_length, hlsf]
  · show (pack (viterbi hw.punctP3 206 X).1).length = 26
    rw [pack_length, hpkt]
  · rintro t ⟨hob, h0, h1, h2⟩
    exact ⟨hob, h0, h1, h2, pack_chunk_last hpkt⟩

/-! ## STR_RX (R326) -/

theorem WritesOnly.writeStream {s u : State} {w : List (Fin 8)} (h : WritesOnly w 24 s u) {d : LichDecoded} {B : Bytes}
    {m : Nat} (hB : B.length ≤ 18) : WritesOnly (5 :: 4 :: 3 :: 2 :: 1 :: 0 :: w) 24 s (u.writeStream d B m) :=
  ((h.obWrite (by simp)).obWrite (by omega)).setResNat.setResNat.setResNat.setResNat.setResNat.setRes

/-- EOT is the top bit of the frame number (R326). -/
theorem beNat_slice_div {B : Bytes} (hB : 2 ≤ B.length) : beNat (slice B 0 2) / 2 ^ 15 = (B.getD 0 0).toNat / 128 := by
  obtain ⟨a, b, B', rfl⟩ : ∃ a b B', B = a :: b :: B' := by
    match B, hB with
    | a :: b :: B', _ => exact ⟨a, b, B', rfl⟩
  have hslice : slice (a :: b :: B') 0 2 = [a, b] := rfl
  have hb := b.isLt
  rw [hslice, beNat_cons, beNat_singleton, List.length_singleton, List.getD_cons_zero]
  omega

section Feed

variable {s : State} {d : LichDecoded} {v : Bits} {m : Nat} {l : LichCollector} {a : LichAction}

/-- STR_RX with FEED = 1 offers the chunk to the collector after its other writes (R326). -/
theorem strRx_feed_gives (hlo : 2 ^ 16 ≤ (s.argReg 0).toNat) (hhi : (s.argReg 0).toNat < 2 ^ 17)
    (hd : lichSoftDecode hw (slice (rxFront hw (s.ibytes 0 384)) 0 96) = d)
    (hr : viterbi hw.punctP2 144 (slice (rxFront hw (s.ibytes 0 384)) 96 368) = (v, m))
    (hoffer : offerLich hw s.lich d (BitVec.ofNat 16 (s.argReg 0).toNat) = (l, a)) :
    Gives .strRx s none [0, 1, 2, 3, 4, 5, 6] 24 fun t =>
      t.pkt = s.pkt ∧ t.text = s.text ∧ ObHolds t 0 (beBytes 6 d.unit.toNat) ∧ ObHolds t 6 (pack v)
      ∧ ResIs t 0 (beNat (slice (pack v) 0 2)) ∧ ResIs t 1 d.metric ∧ ResIs t 2 d.bad.toNat ∧ ResIs t 3 m
      ∧ ResIs t 4 (((pack v).getD 0 0).toNat / 128) ∧ ResIs t 5 d.ctr.toNat ∧ ResIs t 6 a.code ∧ t.lich = l := by
  obtain ⟨hv, hm⟩ := viterbi_result hr
  have hmetric : d.metric < 2 ^ 32 := hd ▸ lichSoftDecode_metric_lt _
  have hfn : beNat (slice (pack v) 0 2) < 2 ^ 32 :=
    (beNat_lt _).trans_le (Nat.pow_le_pow_right (by decide) (by rw [slice_length]; omega) : _ ≤ 256 ^ 4)
  have hfeed : (s.argReg 0).getLsbD 16 = true := by
    rw [getLsbD_iff]
    omega
  have hrun : commandRun .strRx s = (((s.writeStream d (pack v) m).setLich l).setResNat 6 a.code).ok := by
    show strRxRun hw s = _
    simp only [strRxRun, hd, hr, if_neg (State.not_argHigh_of_lt hhi), if_pos hfeed, State.argField_eq_ofNat, hoffer]
  have hframe := commandRun_framed .strRx s
  rw [hrun] at hframe
  have hwrites : WritesOnly _ 24 s (s.writeStream d (pack v) m) :=
    WritesOnly.start.writeStream (by rw [pack_length, hv])
  obtain ⟨hunit, hpayload⟩ := State.writeStream_obHolds (s := s) (m := m) d (pack v)
  have hres := State.writeStream_resReg (s := s) (m := m) d (pack v)
  have hbad : d.bad.toNat < 2 ^ 32 := (Bool.toNat_le _).trans_lt (by decide)
  have heot : ((pack v).getD 0 0).toNat / 128 < 2 ^ 32 :=
    (Nat.div_le_self _ _).trans_lt (((pack v).getD 0 0).isLt.trans (by decide))
  -- from here on only these facts about the written state count
  generalize s.writeStream d (pack v) m = u at hrun hframe hwrites hunit hpayload hres
  exact .of_writes hrun rfl hwrites.setLich.setResNat (by decide)
    ⟨hframe.pkt (by decide), hframe.text (by decide), by simp [hunit], by simp [hpayload],
      .of_ofNat hfn (by simp [hres]), .of_ofNat hmetric (by simp [hres]), .of_ofNat hbad (by simp [hres]),
      .of_ofNat (by omega) (by simp [hres]), .of_ofNat heot (by simp [hres]), .of_setWidth (by decide) (by simp [hres]),
      .of_ofNat a.code_lt (by simp), by simp⟩

end Feed

/-- Settles O58: FEED = 0 by the frame of the command, FEED = 1 by the offer. -/
theorem receiveStreamCommand : Obligations.ReceiveStreamCommand := by
  intro s rb X d r P sid ctr wrote
  have hX : rxFront hw (s.ibytes 0 384) = X := s.rxFront_eq
  have hd : lichSoftDecode hw (slice (rxFront hw (s.ibytes 0 384)) 0 96) = d := by rw [hX]
  have hr : viterbi hw.punctP2 144 (slice (rxFront hw (s.ibytes 0 384)) 96 368) = r := by rw [hX]; rfl
  have hctr : d.ctr.toNat = ctr := lichSoftDecode_ctr _
  have hle : d.bad = false → d.ctr.toNat ≤ 5 := lichSoftDecode_ctr_le
  have hmetric : d.metric < 2 ^ 32 := lichSoftDecode_metric_lt _
  have hv : r.1.length = 144 := viterbi_length ..
  have hbad : (if d.bad then 1 else 0) = d.bad.toNat := by cases d.bad <;> rfl
  clear_value d r
  have hP : P.length = 18 := by rw [pack_length, hv]
  have heot : beNat (slice P 0 2) / 2 ^ 15 = (P.getD 0 0).toNat / 128 := beNat_slice_div (by omega)
  refine ⟨hP, fun harg => ?single, fun hlo hhi => ?feed,
    fun harg => .of_commandRun (if_pos ((s.argHigh_ne_zero_iff 0 17).2 harg))⟩
  case single =>
    refine Gives.imp (strRx_yields harg hd hmetric hr) ?_
    rintro t ⟨⟨hlich, hpkt, htext⟩, hunit, hob, h0, h1, h2, h3, h4, h5⟩
    exact ⟨⟨hpkt, htext, hunit, hob, h0, h1, hbad ▸ h2, h3, heot ▸ h4, hctr ▸ h5⟩, hlich⟩
  case feed =>
    rcases hoffer : offerLich hw s.lich d sid with ⟨l, a⟩
    refine (strRx_feed_gives hlo hhi hd hr hoffer).imp ?_
    rintro t ⟨hpkt, htext, hunit, hob, h0, h1, h2, h3, h4, h5, h6, hlich⟩
    refine ⟨⟨hpkt, htext, hunit, hob, h0, h1, hbad ▸ h2, h3, heot ▸ h4, hctr ▸ h5⟩, fun hdrop => ?_, fun hgood => ?_⟩
    · cases hoffer.symm.trans (offerLich_of_bad _ _ hdrop)
      exact ⟨h6, hlich⟩
    · obtain ⟨hcode, hoffered⟩ := offerLich_offered s.lich sid hgood hctr
      rw [hoffer] at hcode hoffered
      exact ⟨hctr ▸ hle hgood, _, hcode, h6, hlich ▸ hoffered⟩

end Sys2Proof.Machine
end

section
/-! # BERT_TX and BERT_RX (49_pipeline_bert.md R329 to R331; O60) -/

namespace Sys2Proof.Machine

/-! ## On this hardware (R329) -/

theorem kept_bertMask_hw : kept (bertMask hw) 402 = 303 := by
  rw [kept_eq_periods (by decide)]
  decide

theorem bertFits_hw : bertFits hw = false := by
  rw [bertFits, kept_bertMask_hw]
  rfl

section Hardware

variable {s : State}

theorem bert_badLength (h : (s.argReg 0).toNat < 512) :
    OnlyRaises .bertTx s (.invalidInput .badLength) ∧ OnlyRaises .bertRx s (.invalidInput .badLength) := by
  have hseed : ¬ s.argHigh 0 9 ≠ 0 := State.not_argHigh_of_lt h
  have hfits : (!bertFits hw) = true := by rw [bertFits_hw, Bool.not_false]
  exact ⟨.of_commandRun ((if_neg hseed).trans (if_pos hfits)), .of_commandRun ((if_neg hseed).trans (if_pos hfits))⟩

theorem bert_fieldRange (h : 512 ≤ (s.argReg 0).toNat) :
    OnlyRaises .bertTx s (.invalidInput .fieldRange) ∧ OnlyRaises .bertRx s (.invalidInput .fieldRange) :=
  have hseed := (s.argHigh_ne_zero_iff 0 9).2 h
  ⟨.of_commandRun (if_pos hseed), .of_commandRun (if_pos hseed)⟩

end Hardware

/-! ## With a mask that fills the frame (R330, R331) -/

/-- The hardware with another BERT mask. -/
def withBertMask (mask : Bits) : Params := { hw with bertPunct := .other mask }

theorem txFrame_withBertMask (mask : Bits) (sync : BitVec 16) (c : Bits) :
    txFrame (withBertMask mask) sync c = txFrame hw sync c := rfl

theorem bertFits_withBertMask {mask : Bits} (h : kept mask 402 = 368) : bertFits (withBertMask mask) = true := by
  show (kept mask 402 == frameBits) = true
  rw [h]
  rfl

/-- What a run that ends without an exception, writes no collector and only the registers listed and OB[0..n), completes
as. -/
theorem Run.completes {s : State} {r : Run} {v w : List (Fin 8)} {n : Nat} {post : State → Prop} (he : r.error = none)
    (hv : WritesOnly v n s r.state) (hsub : v ⊆ w) (hkept : CollectorsKept s r.state)
    (hp : post (r.state.complete none)) :
    ∃ t, r.finish = .next t ∧ Completed s t none ∧ CollectorsKept s t ∧ ResKept s t w ∧ BytesKept s t n ∧ post t :=
  ⟨r.state.complete none, by rw [Run.finish_eq, he], .of_kept hv.host hv.cmdcnt none, hkept,
    fun k hk => hv.res k (mt (@hsub k) hk), hv.bytes, hp⟩

section Mask

variable {mask : Bits} {s : State} (hmask : kept mask 402 = 368) (hseed : (s.argReg 0).toNat < 512)
include hmask hseed

theorem bertTxRun_completes :
    ∃ t, (bertTxRun (withBertMask mask) s).finish = .next t ∧ Completed s t none ∧ CollectorsKept s t ∧ ResKept s t [0]
      ∧ BytesKept s t 48
      ∧ FrameCarries t 0xDF55
          (puncture mask (conv (prbs (withBertMask mask) 197 (BitVec.ofNat 9 (s.argReg 0).toNat)).1))
      ∧ ResIs t 0 (prbs (withBertMask mask) 197 (BitVec.ofNat 9 (s.argReg 0).toNat)).2.toNat := by
  have hfits : ¬ (!bertFits (withBertMask mask)) = true := by simp [bertFits_withBertMask hmask]
  generalize hsent : prbs (withBertMask mask) 197 (BitVec.ofNat 9 (s.argReg 0).toNat) = sent
  have hrun : bertTxRun (withBertMask mask) s
      = ((s.obWrite 0 (txFrame hw syncBert (puncture mask (conv sent.1)))).setRes 0 (sent.2.setWidth 32)).ok := by
    rw [bertTxRun, if_neg (State.not_argHigh_of_lt hseed), if_neg hfits, State.argField_eq_ofNat, hsent]
    rfl
  rw [hrun]
  refine Run.completes rfl (WritesOnly.start.obWrite (by rw [txFrame_length])).setRes (by decide)
    (by simp [CollectorsKept]) ⟨frameCarries_of_txFrame (sync := syncBert) ?_, .of_setWidth (by decide) (by simp)⟩
  simp

theorem bertRxRun_completes :
    ∃ t, (bertRxRun (withBertMask mask) s).finish = .next t ∧ Completed s t none ∧ CollectorsKept s t
      ∧ ResKept s t [0, 1, 2] ∧ BytesKept s t 25
      ∧ ObHolds t 0 (pack (viterbi mask 197 (rxFront (withBertMask mask) (s.ibytes 0 384))).1)
      ∧ ResIs t 0 ((List.range 197).countP fun i =>
          (viterbi mask 197 (rxFront (withBertMask mask) (s.ibytes 0 384))).1.getD i false
            != (prbs (withBertMask mask) 197 (BitVec.ofNat 9 (s.argReg 0).toNat)).1.getD i false)
      ∧ ResIs t 1 197 ∧ ResIs t 2 (viterbi mask 197 (rxFront (withBertMask mask) (s.ibytes 0 384))).2 := by
  have hfits : ¬ (!bertFits (withBertMask mask)) = true := by simp [bertFits_withBertMask hmask]
  generalize hsent : prbs (withBertMask mask) 197 (BitVec.ofNat 9 (s.argReg 0).toNat) = sent
  rcases hr : viterbi mask 197 (rxFront (withBertMask mask) (s.ibytes 0 384)) with ⟨v, m⟩
  obtain ⟨hv, hm⟩ := viterbi_result hr
  have hr' : viterbi (bertMask (withBertMask mask)) 197 (rxFront (withBertMask mask) (s.ibytes 0 384)) = (v, m) := hr
  have hrun : bertRxRun (withBertMask mask) s
      = ((((s.obWrite 0 (pack v)).setResNat 0 (bitErrors 197 v sent.1)).setResNat 1 197).setResNat 2 m).ok := by
    rw [bertRxRun, if_neg (State.not_argHigh_of_lt hseed), if_neg hfits]
    simp only [hr', State.argField_eq_ofNat, hsent]
  have herrors : bitErrors 197 v sent.1 ≤ 197 := (List.countP_le_length ..).trans_eq List.length_range
  rw [hrun]
  exact Run.completes rfl (WritesOnly.start.obWrite (by rw [pack_length, hv])).setResNat.setResNat.setResNat (by decide)
    (by simp [CollectorsKept])
    ⟨by simp, .of_ofNat (v := bitErrors 197 v sent.1) (by omega) (by simp), .of_ofNat (by decide) (by simp),
      .of_ofNat (by omega) (by simp)⟩

end Mask

/-- Settles O60: the hardware's mask counted by periods, and the two runs with a mask that fits. -/
theorem bertCommands : Obligations.BertCommands := by
  refine ⟨fun s => ⟨bert_badLength, bert_fieldRange⟩, kept_bertMask_hw, fun mask s hmask hseed => ?_⟩
  exact ⟨bertTxRun_completes hmask hseed, bertRxRun_completes hmask hseed⟩

end Sys2Proof.Machine
end
